-- ==== Sys2Proof/Word.lean ====
section
/-! DEFINITION. The word types of the machine and their plainest arithmetic (R5, R6, R10). -/

namespace Sys2Proof

/-- One byte of memory (R5). -/
abbrev Byte := BitVec 8
/-- A scalar register, control register or aperture register (R21, R29). -/
abbrev W64 := BitVec 64
/-- A vector lane, an accumulator word, a slot (R72, R123, R223). -/
abbrev W32 := BitVec 32

/-- A bit as a number. -/
def b2n (b : Bool) : Nat := if b then 1 else 0

end Sys2Proof
end

