-- ==== Sys2Proof/Config.lean ====
section
/-! DEFINITION. What the construction of the part fixes (R16 to R31), and the free values: constants without a body,
for what the manual leaves open. Nothing can be proved of a free value but what its uses bound. -/

namespace Sys2Proof.Config

/-- R19, R21: populated cores of a module. -/
def numCores : Nat := 1152
/-- R17, R22: quads, and with them kiosks, of a module. -/
def numQuads : Nat := 288
/-- R16: compute dies. -/
def numDies : Nat := 8
/-- R17: barrier identifiers of a scope's network. -/
def numBarrierIds : Nat := 16
/-- R22: task entries a priority band of a kiosk holds. -/
def bandSize : Nat := 256
/-- R21: entries of a copy engine's time-sorted buffer. -/
def copyBufferSize : Nat := 32
/-- R117: entries of a die's host ingress buffer. -/
def ingressSize : Nat := 4096
/-- R276: flow entries of a turnstile. -/
def flowEntries : Nat := 64
/-- R303: remap entries of the package. -/
def remapEntries : Nat := 64
/-- R262: the lease limit LMAX in ticks. -/
def leaseMax : Nat := 16777216
/-- R307: TDISP interfaces. -/
def numInterfaces : Nat := 64

/-- R2, R3, R31: the machine's unit of time is 1/315 tick, in which a cycle of every operating point is a whole
number; this is the tick. -/
def unitsPerTick : Nat := 315

/-- R31: one cycle at operating point `op`, in units of time. -/
def cycleUnits (op : Nat) : Nat :=
  match op with
  | 0 => 1260
  | 1 => 840
  | 2 => 630
  | 3 => 504
  | 4 => 420
  | 5 => 360
  | 6 => 315
  | _ => 280

/-- R406: ticks from a thermal trip to the arrival of the Lodge's request at the core. DEDUCED (assumption 59) from that run. -/
def migrationRequestTicks : Nat := 4

/-- FREE VALUE (R409): the time a bounded mechanism takes at its n-th use; every use takes it no later than the bound. -/
opaque delay : Nat → Nat
/-- FREE VALUE (R85, R86): what wrong terms add to the low slice of a group sum at its n-th use; used within the bound. -/
opaque wrongLow : Nat → Int
/-- FREE VALUE (R85, R86): what wrong terms add to the middle slice, in units of its lowest position; used within the bound. -/
opaque wrongMid : Nat → Int
/-- FREE VALUE (R85, R86): what wrong terms add through the carry stage of positions 18 to 21 at F3; used within the bound. -/
opaque wrongHigh : Nat → Int
/-- FREE VALUE (R88): the slice in which the n-th matrix instruction at F0 meets a residue mismatch, if a fault of the array
gives one. -/
opaque faultAtF0 : Nat → Option Nat
/-- FREE VALUE (R100): byte `i` of the decryption under key generation `r` of a unit written under generation `w`. -/
opaque decrypted (w r unit i : Nat) (stored : List Byte) : Byte
/-- FREE VALUE (R299): what sensor `n` measures at a tick, in the sensor's unit. -/
opaque sensor (n tick : Nat) : Int
/-- FREE VALUE (R263, R385): whether byte `i` of an uncommitted segment stands at the far slice. -/
opaque segmentByteStands (use i : Nat) : Bool
/-- FREE VALUE (R308): the SHA-256 digest of measured content, whose bytes the spec does not lay out. -/
opaque digest : List Nat → Nat
/-- FREE VALUE (R310): the fields of the header of the image staged at a device physical address at the n-th reading: whether it verifies
(1), its role, its version, VMIN and VMAX. -/
opaque stagedImage (use pa field : Nat) : Nat
/-- FREE VALUE (R308): the SLH-DSA-SHA2-128s signature of a report. -/
opaque signature : List Nat → Nat
/-- FREE VALUE (R311): the state version at which the running instance of a role serialises its state. -/
opaque stateVersion (role use : Nat) : Nat
/-- FREE VALUE (R379): whether the n-th visit of the patrol scrub finds its unit uncorrectable. -/
opaque scrubFinds : Nat → Bool
/-- FREE VALUE (R297): whether the Lodge grants its n-th lease request. -/
opaque leaseGranted : Nat → Bool
/-- FREE VALUE (R297): the ticks that the Lodge grants at its n-th answer; never more than asked. -/
opaque leaseTicks : Nat → Nat
/-- FREE VALUE (R300): how AUX of a kind-1 event packs a measurement index and its extend count. -/
opaque measurementAux (index count : Nat) : Nat
/-- FREE VALUE (R308): the device identity's certificate chain, signed. -/
opaque identityChain : List Byte
/-- FREE VALUE (R378): whether the n-th row test finds a lasting fault. -/
opaque rowLasting : Nat → Bool
/-- FREE VALUE (R378): the row of its stack or channel that a 64-byte unit of DRAM lies in. -/
opaque dramRow (unit : Nat) : Nat
/-- FREE VALUE (R378): the bank that a row of a stack or channel lies in. -/
opaque dramBank (row : Nat) : Nat
/-- FREE VALUE (R368, R378): the number that records give instruction memory (0), a control store (1) and the context banks (2) for a bank. -/
opaque bankNumber (kind : Nat) : Nat
/-- FREE VALUE (R269, R272): the quad of its die, below 36, at whose router packets from another die to a 64-byte unit of bonded DRAM emerge. -/
opaque dramQuad (unit : Nat) : Nat
/-- FREE VALUE (R289, R290): how many flits of a run that is being sent as the selector changes went before the change. -/
opaque flitsBefore (use : Nat) : Nat
/-- FREE VALUE (R289): the tag under a key of the flit or packet with an initialisation vector. -/
opaque linkTag (key iv : Nat) : Nat
/-- FREE VALUE (R58): bytes of the register image that the spill engine writes. -/
opaque registerImageBytes : Nat
/-- FREE VALUE (R26, R284): byte `i` that another module returns to the n-th read of it. -/
opaque remoteByte (use i : Nat) : Byte
/-- FREE VALUE (R26): the byte at a device physical address of another module at a tick, as the table walks of this one read it. -/
opaque remoteMemory (tick pa : Nat) : Byte
/-- FREE VALUE (R64): whether the POD barrier identifier `id` is enabled in the module of package `pkg` at a tick. -/
opaque podEnabled (pkg id tick : Nat) : Bool
/-- FREE VALUE (R44, R58): byte `i` of the n-th image that a spill engine writes into a save slot. -/
opaque imageByte (use i : Nat) : Byte
/-- FREE VALUE (R382): whether another module refuses the n-th request made to it. -/
opaque remoteRefuses (use : Nat) : Bool
/-- FREE VALUE (R382): whether the n-th request to another module is never answered. -/
opaque remoteSilent (use : Nat) : Bool
/-- FREE VALUE (R289): how many flits or packets the n-th request, response or segment takes on its link. -/
opaque linkFlits (use : Nat) : Nat
/-- FREE VALUE (R266): whether a network engine of an I/O die that holds `queued` requests can take no other. -/
opaque engineFull (e queued : Nat) : Bool
/-- FREE VALUE (R382): whether a package identifier stands in the pod's switch tables. -/
opaque inPod (pkg : Nat) : Bool
/-- FREE VALUE (R382): whether the interface isolation of this module excludes a package from a local address. -/
opaque isolates (pkg addr : Nat) : Bool

end Sys2Proof.Config
end

