-- ==== Sys2Proof/Syntax.lean ====
section
/-! DEFINITION. The rows of the part's table of operations and events (spec/opcode_table.json), one constructor of
`Instr` each. The 215 rows with an encoding carry the operand fields of R123 to R143 without the group-end bit G,
which belongs to the slot (`Slot`); the 99 machine happenings carry what they act on or bring as a `Happening`. -/

namespace Sys2Proof

/-- R124, R141: the vector cluster a UNIT field selects. -/
inductive Cluster where
  /-- UNIT 1 -/
  | va
  /-- UNIT 2 -/
  | vb
  deriving DecidableEq, Repr

/-- R124, R143: the copy engine a UNIT field selects. -/
inductive Engine where
  /-- UNIT 4 -/
  | c0
  /-- UNIT 5 -/
  | c1
  deriving DecidableEq, Repr

/-- R14, R106: the six levels of the hierarchy. -/
inductive Scope where
  | lane
  | core
  | quad
  | die
  | pkg
  | pod
  deriving DecidableEq, Repr

/-- R37: who delivered a descriptor: a task by TSPAWN (its linear core number and TASKID), or the host window of a
kiosk (the quad whose KPORT was written). -/
inductive TaskSource where
  | core (lcn : Nat) (taskid : Nat)
  | host (q : Nat)
  deriving DecidableEq, Repr

/-- R307: the TDISP messages that move an interface; `lock` brings the quads and ASIDs the interface is bound to. -/
inductive TdispMessage where
  | lock (quads : List Nat) (asids : List Nat)
  | start
  | stop
  | error
  deriving DecidableEq, Repr

/-- R308: what an SPDM request asks for. -/
inductive SpdmRequest where
  | measurement (index : Nat)
  | identity
  | interfaceReport (r : Nat)
  deriving DecidableEq, Repr

/-- R310: the signed header of a staged firmware image: whether its signature verifies, its role, its version, and the
range of state versions it accepts. -/
structure FirmwareImage where
  verified : Bool
  role : Nat
  version : Nat
  vmin : Nat
  vmax : Nat
  deriving DecidableEq, Repr

/-- R276: a flow is one (source CID, destination CID, label). -/
structure FlowId where
  src : Nat
  dst : Nat
  label : Nat
  deriving DecidableEq, Repr

/-- R368: the element kinds of event 0x0209. -/
inductive GlassElement where
  | wavelength
  | crosspoint
  | trunkSlot
  deriving DecidableEq, Repr

/-- R382: an operation another package asks of this one. -/
inductive RemoteOp where
  | load (len : Nat)
  | store (bytes : List (BitVec 8))
  /-- `opc` is the OPC of R140, `wide` the 8-byte form, `cmp` the comparand of CAS. -/
  | atomic (opc : BitVec 7) (wide : Bool) (operand cmp : BitVec 64)
  /-- R251: BARS, BARA and BARRT. -/
  | arm (count : BitVec 32) (scope : BitVec 3)
  | arrive (tx : BitVec 48)
  | retire
  /-- R61, R363: a join update, of a TEXIT with its status or of a child ended by a cause. -/
  | joinEnd (status : BitVec 64)
  | joinFail (cause : BitVec 8)
  /-- R115, R116: bytes delivered are counted into a sync word or a barrier slot. -/
  | syncCount (n : Nat)
  | slotCount (n : Nat)
  /-- R64: an arrival at a POD barrier identifier that this module counts. -/
  | barrier (id : Nat)
  deriving DecidableEq, Repr

/-- R377, R378: the memory a corrected error lies in: a scratchpad bank of a core, its instruction memory, its control store or its context
banks, or a DRAM channel or stack. -/
inductive MemPlace where
  | bank (lcn : Nat) (bank : Nat)
  | imem (lcn : Nat)
  | cstore (lcn : Nat)
  | contexts (lcn : Nat)
  | channel (c : Nat)
  | stack (die : Nat)
  deriving DecidableEq, Repr

/-- The machine happenings of the table, each with what it acts on or brings: the rows without an encoding. `Instr` has a
constructor without fields for each; the happening that is being performed stands in the state. -/
inductive Happening where
  /-- R41. A 64-byte host write to KPORT delivers one descriptor to the kiosk. -/
  | kportWrite (q : Nat) (bytes : List (BitVec 8))
  /-- R38. A kiosk accepts a delivered descriptor into its band, stamps it and assigns a task identifier, or refuses it. -/
  | taskAcceptance (q : Nat) (src : TaskSource) (bytes : List (BitVec 8))
  /-- R47. The kiosk selects an entry for a core whose shadow bank is free. -/
  | kioskSelect (q : Nat)
  /-- R53. The preload engine checks the preload list and fills the shadow bank's registers, program, control store and ranges. -/
  | preload (n : Nat)
  /-- R53. A preload item blocked behind the active task starts when its block clears. -/
  | preloadRangeUnblock (n : Nat)
  /-- R49. An entry waiting over 2^20 ticks moves to the next higher band. -/
  | entryAging (q : Nat) (taskid : Nat)
  /-- R52. At each 4,096-tick boundary each kiosk samples and sends its band depths. -/
  | balanceSample
  /-- R52. At t + 256 each kiosk decides and sends moves of entries to its shallowest neighbour. -/
  | balanceDecide
  /-- R52. Moved entries enter the receiver's band no later than t + 320. -/
  | balanceArrival (q : Nat)
  /-- R55. The shadow bank becomes active and the active bank shadow over 24 cycles. -/
  | swap (n : Nat)
  /-- R58. The spill engine saves a departing context into a save slot and frees the shadow bank. -/
  | spill (n : Nat)
  /-- R359. When the remaining budget reaches zero the context is swapped out and held as an overrun entry. -/
  | budgetExhausted (n : Nat) (taskid : Nat)
  /-- R61. A child's TEXIT updates its parent's join word atomically as a release. -/
  | joinUpdate (n : Nat) (taskid : Nat) (status : BitVec 64)
  /-- R363. A child ended by a cause updates its join word with the failure. -/
  | failedJoinUpdate (n : Nat) (taskid : Nat) (cause : BitVec 8)
  /-- R65. A barrier identifier whose arrivals reach its count releases every participant and advances its generation. -/
  | barrierRelease (scope : Scope) (place : Nat) (id : Nat)
  /-- R64. A write to a barrier configuration register clears the arrival count and keeps the generation. -/
  | barcfgWrite (addr : Nat) (val : BitVec 64)
  /-- R335. A pending trap from completed work is taken at the next bundle boundary. -/
  | deferredTrap (n : Nat)
  /-- R358. A context ended by a cause stops, drains, releases its resources and updates its join word. -/
  | contextEnd (n : Nat) (cause : BitVec 8) (tval : BitVec 64)
  /-- R359. A machine check losing bank, instruction memory or control store reruns the task from its descriptor. -/
  | contextLost (n : Nat) (cause : BitVec 8)
  /-- R360. Adds budget to an overrun entry and makes it resumable. -/
  | kactAddBudget (q : Nat) (taskid : Nat) (add : BitVec 30)
  /-- R360. Ends a held task with cause 0x8F. -/
  | kactKill (q : Nat) (taskid : Nat)
  /-- R360. Discards an overrun entry's context and requeues it at the head of its band. -/
  | kactRerun (q : Nat) (taskid : Nat)
  /-- R226. A matrix instruction completes, clearing busy bits and setting its flags. -/
  | matrixComplete (n : Nat) (mid : Nat)
  /-- R90. The matrix rails finish settling to a new fidelity level. -/
  | railSettled (n : Nat)
  /-- R293. An operating-point transition finishes settling and the new point takes force. -/
  | opSettled (n : Nat)
  /-- R296. A bundle whose weight would exceed ECAP is replaced by a stall bundle and retried next cycle. -/
  | stallBundle (n : Nat)
  /-- R295. A firmware write to PWRCTL that lowers OPLIM starts a downward transition. -/
  | pwrctlWrite (n : Nat) (val : BitVec 64)
  /-- R297. A write to BREQ requests a boost lease for a core's context. -/
  | boostLeaseRequest (val : BitVec 64)
  /-- R297. The Lodge answers a lease request within 24,000 ticks. -/
  | boostLeaseAnswer (granted : Bool) (ticks : Nat)
  /-- R298. A lease whose ticks run out ends and the core drops to OP6. -/
  | boostLeaseEnd (n : Nat) (taskid : Nat)
  /-- R298. The Lodge revokes a lease to hold the power limit. -/
  | boostLeaseRevoke (n : Nat)
  /-- R299. Every 4,096 ticks the sensors are sampled and subscriptions tested. -/
  | sensorSample
  /-- R301. The Lodge lowers a hot core's OPLIM by one point every 4,096 ticks. -/
  | thermalThrottle (n : Nat)
  /-- R302. A context stopped at a group boundary is moved with its bank, footprint and program to a target core. -/
  | migration (n : Nat) (target : Nat)
  /-- R305. An RBUD write is judged by its SEQ and, if valid, sets the budget and starts a hold. -/
  | rackBudgetMessage (val : BitVec 64)
  /-- R392. A 100 ms hold ending without a newer message puts the floor budget in force. -/
  | rackBudgetHoldExpiry (deadline : Nat)
  /-- R117. A host write enters the die's ingress buffer or performs at DRAM or apertures. -/
  | hostWrite (addr : Nat) (bytes : List (BitVec 8)) (enables : List Bool) (tag : Nat)
  /-- R117, R311, R375, R378: the host port tries again what it holds because of a unit in motion, a row under test or a frozen Lodge; part
  of the row of the host writes. -/
  | portRetry
  /-- R118. A host read of a slice is answered after earlier host writes to that die are applied. -/
  | hostRead (addr : Nat) (len : Nat) (tag : Nat)
  /-- R118. A claimed or applied host ingress entry performs as a class-15 write. -/
  | hostEntryPerform (die : Nat)
  /-- R376. With AUTO set, an aged ingress head causes the die to apply every buffered entry. -/
  | ingressAgeExpiry (die : Nat)
  /-- R376. A host read or host-window descriptor held AGE ticks with AUTO clear is refused. -/
  | hostRequestAgeExpiry (die : Nat)
  /-- R376. Writing DRAIN applies every entry in the die's ingress buffer. -/
  | hwcfgDrain (die : Nat) (val : BitVec 64)
  /-- R307. A TDISP message moves an interface between its states. -/
  | tdispRequest (r : Nat) (msg : TdispMessage)
  /-- R308. An SPDM request is answered with signed measurements or reports. -/
  | spdmRequest (req : SpdmRequest)
  /-- R309. A tenant key delivered in an SPDM session is written to a key slot and bound. -/
  | keySlotInstall (slot : Nat) (iface : Nat) (key : Nat)
  /-- R310. Writing GO starts a firmware hand-over by reading and verifying the image. -/
  | fwhoGo (val : BitVec 64) (image : FirmwareImage)
  /-- R311. After serialising and freezing, the new instance starts on the serialised state at h. -/
  | handoverTrialStart
  /-- R312. A write to FWHB records the new instance's heartbeat. -/
  | heartbeat
  /-- R312. Each 1 ms probation interval is checked for a heartbeat. -/
  | heartbeatIntervalEnd (k : Nat)
  /-- R394. The new instance stops or takes a machine check during probation; part of the row of the heartbeats, whose absence it counts
  as. -/
  | instanceStops
  /-- R311. At h + 200 ms the hand-over commits and the old instance is discarded. -/
  | handoverCommit
  /-- R395. The resumed old instance missing a heartbeat reloads the role or warm-resets. -/
  | oldInstanceHeartbeatMiss
  /-- R315. A cold reset brings the module up through boot verification, link training, self-test and table installation. -/
  | coldReset (pkgid : BitVec 10) (avail : List (BitVec 64)) (usable : List (Nat × Nat))
  /-- R315. A warm reset repeats bring-up steps 2 to 6 keeping PKGID. -/
  | warmReset (avail : List (BitVec 64)) (usable : List (Nat × Nat))
  /-- R388. A trunk port is left with `usable` permits; part of the row of the self-test that finds it so. -/
  | trunkDegraded (port : Nat) (usable : Nat)
  /-- R273. A firmware write to FPERM is checked and sets the trunk permit minima, or is refused. -/
  | fpermWrite (die : Nat) (val : BitVec 64)
  /-- R275. A firmware write to a connection-table entry is checked and sets trunk slots, or is refused. -/
  | conntabWrite (die : Nat) (dest : Nat) (val : BitVec 64)
  /-- R369. A write to ERRBASE sets a ring and resets HEAD, TAIL and LOST. -/
  | errbaseWrite (r : Nat) (val : BitVec 64)
  /-- R7. A write to a register with no behaviour of its own sets its fields under their access codes. -/
  | registerWrite (addr : Nat) (val : BitVec 64)
  /-- R290. The Lodge installs a new link key in the idle slot at both ends. -/
  | linkKeyRotation (link : Nat)
  /-- R290. Once the receiver reports ready, the transmitter switches to the new key slot. -/
  | keySelectorSwitch (link : Nat)
  /-- R290. At least 1 ms after the switch the old slot is retired at the receiver. -/
  | keySlotRetire (link : Nat)
  /-- R390. No ready report within 10 ms keeps the old key and retries. -/
  | keyInstallTimeout (link : Nat)
  /-- R390. A link reaching 2^41 uses of one key is stopped and taken out of service. -/
  | keyUseLimit (link : Nat)
  /-- R276. At each window start flow counts reset, idle entries free and hold-offs age. -/
  | turnstileWindow
  /-- R258. A buffered copy command starts at its issue tick once its engine is free. -/
  | copyCommandStart (n : Nat) (e : Engine)
  /-- R257. The engine issues one burst of a running command. -/
  | copyBurst (n : Nat) (e : Engine)
  /-- R257. A delivered burst performs at its destination, counts into its binding and fills watermark units. -/
  | burstPerform (id : Nat)
  /-- R272. A flit is forwarded out of the receive buffer of a trunk port and its permit returns; part of the row of its burst. -/
  | permitReturn (port : Nat) (cls : Nat) (shared : Bool)
  /-- R257. When every burst has performed the command performs its release and completes. -/
  | copyCommandComplete (n : Nat) (e : Engine)
  /-- R278. A turnstile launches a promotion lantern, one per tick. -/
  | lanternLaunch (q : Nat) (entry : Nat)
  /-- R280. A lantern tries a hop, reserving a slot, backtracking or failing. -/
  | lanternHop (id : Nat)
  /-- R281. A lantern's acknowledgement reaches the source, opening the circuit or starting the marked switch. -/
  | lanternAck (id : Nat)
  /-- R384. A lantern unacknowledged after 2,048 ticks is abandoned and its slots swept. -/
  | lanternTimeout (id : Nat)
  /-- R282. A circuit beat arrives at the landing entry and is held or performed. -/
  | circuitBeatArrival (id : Nat)
  /-- R282. The mark arrives and the landing entry releases held bursts. -/
  | markArrival (flow : FlowId) (offset : Nat)
  /-- R282. The release notice reaches the source and lifts the 8 KiB limit. -/
  | releaseNotice (flow : FlowId)
  /-- R283. A promoted flow idle for a whole window sends a teardown. -/
  | flowDemotion (q : Nat) (entry : Nat)
  /-- R283. The teardown acknowledgement releases the slots and returns the entry to counting. -/
  | teardownAck (q : Nat) (entry : Nat)
  /-- R386. A segment commit notice of a promoted flow reaches the source. -/
  | commitNotice (q : Nat) (entry : Nat) (offset : Nat)
  /-- R263. A queued CSEND stream starts once its handle is OPEN. -/
  | streamStart (taskid : Nat) (h : Nat)
  /-- R263. A stream segment whose bytes have performed is counted into its binding. -/
  | segmentCommit (taskid : Nat) (h : Nat)
  /-- R385. A circuit lease reaching zero ends the circuit after its segment in flight. -/
  | circuitLeaseExpiry (taskid : Nat) (h : Nat)
  /-- R385. A failed wavelength, crosspoint or trunk slot ends its circuits and is replaced by a spare. -/
  | glasshouseElementFailure (die : Nat) (kind : GlassElement) (num : Nat)
  /-- R385. The source learns of the failure of the circuit of a handle; part of the row of the failure, in the tick after it. -/
  | circuitFails (taskid : Nat) (h : Nat)
  /-- R386. The source learns of the failure of the circuit of a promoted flow; part of the row of the failure. -/
  | flowFails (q : Nat) (entry : Nat)
  /-- R219. An access outside the home window performs when its request arrives at its destination. -/
  | accessPerform (id : Nat)
  /-- R219. A load value or write acknowledgement returns to the issuer. -/
  | accessResponse (id : Nat)
  /-- R285. A response from a peer adjusts that peer's outstanding-byte cap. -/
  | ualinkResponse (pkg : Nat) (bytes : Nat) (rtt : Nat)
  /-- R382. A request from another package is performed here or refused. -/
  | remoteRequest (pkg : Nat) (addr : Nat) (op : RemoteOp) (key : Nat)
  /-- R382. No response 1,200,000 ticks after a remote request ends its context. -/
  | remoteTimeout (id : Nat)
  /-- R387. A link-layer replay of flit number `flit`, counted toward taking the station out of service. -/
  | linkReplay (station flit : Nat)
  /-- R387. A station or port is taken out of service and its unacknowledged requests fail. -/
  | stationOutOfService (station : Nat)
  /-- R266. A network segment acknowledged or performed is counted into CSW. -/
  | networkSegmentComplete (engine : Nat) (seq : Nat) (bytes : List (BitVec 8))
  /-- R383. A network request that cannot complete ends its context with 0xA5. -/
  | networkRequestFailure (engine : Nat) (seq : Nat)
  /-- R378. A corrected memory error starts a test of the affected row. -/
  | correctedError (place : MemPlace) (row : Nat)
  /-- R378. The row test ends, recording a soft error or sparing the row. -/
  | rowTestComplete (place : MemPlace) (row : Nat) (lasting : Bool)
  /-- R379. Patrol scrub visits a DRAM unit and records uncorrectable data. -/
  | patrolScrub (unit : Nat)
  /-- R377, R379. The protected unit at a local address becomes uncorrectable; part of the row of what finds it so. -/
  | uncorrectable (addr : Nat)
  /-- R374. Firmware installs a new table version and sends drain markers. -/
  | interleaveInstall (map : List Nat)
  /-- R374. When every drain marker has arrived the old table version is discarded. -/
  | tableDrainComplete
  /-- R374. The same of the region table. -/
  | regionDrainComplete
  /-- R375. An interleave move of a 4 KiB unit ends and held requests perform at its new place. -/
  | unitMove (unit : Nat)
  /-- R136. A scalar or vector result of a committed instruction arrives in its named register or Trellis slot at its latency, or is discarded if its slot has been reclaimed. -/
  | resultArrival (n : Nat) (rid : Nat)
  /-- R345. A bundle with UNIT 6, a header outside slot 0, a unit used twice or header bit 31 set reaches issue and faults before any slot commits. -/
  | illegalBundle
  /-- R144. A slot holding an unassigned OPC, enabled or disabled, takes cause 0x04 at its place in slot order. -/
  | unassignedOpcode
  deriving DecidableEq, Repr

/-- The operations and events of the part, one constructor a row of the table. -/
inductive Instr where
  /-- R124. Occupies a slot without using a unit; its operand field is ignored. -/
  | nop (x : BitVec 21)
  /-- R153. Writes a sign-extended immediate to a scalar destination. -/
  | li (d : BitVec 6) (i : BitVec 15)
  /-- R153. Shifts a named register left by the immediate width and inserts the unsigned immediate below. -/
  | lih (d : BitVec 6) (i : BitVec 15)
  /-- R153. Copies one scalar source to a scalar destination. -/
  | mov (d : BitVec 6) (a : BitVec 6)
  /-- R154. Writes the 64-bit wrapping sum of two scalar sources. -/
  | add (d : BitVec 6) (a : BitVec 6) (b : BitVec 6)
  /-- R154. Adds a signed immediate to a scalar source. -/
  | addi (d : BitVec 6) (a : BitVec 6) (i : BitVec 9)
  /-- R154. Writes the wrapping difference of two scalar sources. -/
  | sub (d : BitVec 6) (a : BitVec 6) (b : BitVec 6)
  /-- R154. Writes the low 64 bits of the product of two scalar sources. -/
  | mul (d : BitVec 6) (a : BitVec 6) (b : BitVec 6)
  /-- R154. Writes the high 64 bits of the signed product. -/
  | mulhs (d : BitVec 6) (a : BitVec 6) (b : BitVec 6)
  /-- R154. Writes the high 64 bits of the unsigned product. -/
  | mulhu (d : BitVec 6) (a : BitVec 6) (b : BitVec 6)
  /-- R155. Signed division truncating toward zero, with fixed results for zero and overflow. -/
  | divs (d : BitVec 6) (a : BitVec 6) (b : BitVec 6)
  /-- R155. Unsigned division with a fixed result for a zero divisor. -/
  | divu (d : BitVec 6) (a : BitVec 6) (b : BitVec 6)
  /-- R155. Signed remainder taking the sign of the dividend. -/
  | rems (d : BitVec 6) (a : BitVec 6) (b : BitVec 6)
  /-- R155. Unsigned remainder. -/
  | remu (d : BitVec 6) (a : BitVec 6) (b : BitVec 6)
  /-- R154. Bitwise AND of two scalar sources. -/
  | and (d : BitVec 6) (a : BitVec 6) (b : BitVec 6)
  /-- R154. Bitwise AND with a sign-extended immediate. -/
  | andi (d : BitVec 6) (a : BitVec 6) (i : BitVec 9)
  /-- R154. Bitwise OR of two scalar sources. -/
  | or (d : BitVec 6) (a : BitVec 6) (b : BitVec 6)
  /-- R154. Bitwise OR with an unsigned immediate. -/
  | ori (d : BitVec 6) (a : BitVec 6) (i : BitVec 9)
  /-- R154. Bitwise XOR of two scalar sources. -/
  | xor (d : BitVec 6) (a : BitVec 6) (b : BitVec 6)
  /-- R154. Bitwise XOR with an unsigned immediate. -/
  | xori (d : BitVec 6) (a : BitVec 6) (i : BitVec 9)
  /-- R154. Bitwise AND of the first source with the complement of the second. -/
  | andn (d : BitVec 6) (a : BitVec 6) (b : BitVec 6)
  /-- R154. Shifts left by the low six bits of the second source. -/
  | shl (d : BitVec 6) (a : BitVec 6) (b : BitVec 6)
  /-- R154. Shifts left by an immediate amount. -/
  | shli (d : BitVec 6) (a : BitVec 6) (i : BitVec 9)
  /-- R154. Logical right shift by a register amount. -/
  | shr (d : BitVec 6) (a : BitVec 6) (b : BitVec 6)
  /-- R154. Logical right shift by an immediate amount. -/
  | shri (d : BitVec 6) (a : BitVec 6) (i : BitVec 9)
  /-- R154. Arithmetic right shift by a register amount. -/
  | sra (d : BitVec 6) (a : BitVec 6) (b : BitVec 6)
  /-- R154. Arithmetic right shift by an immediate amount. -/
  | srai (d : BitVec 6) (a : BitVec 6) (i : BitVec 9)
  /-- R154. Rotates right within 64 bits. -/
  | ror (d : BitVec 6) (a : BitVec 6) (b : BitVec 6)
  /-- R154. Counts leading zero bits. -/
  | clz (d : BitVec 6) (a : BitVec 6)
  /-- R154. Counts trailing zero bits. -/
  | ctz (d : BitVec 6) (a : BitVec 6)
  /-- R154. Counts one bits. -/
  | popc (d : BitVec 6) (a : BitVec 6)
  /-- R154. Writes the signed minimum. -/
  | mins (d : BitVec 6) (a : BitVec 6) (b : BitVec 6)
  /-- R154. Writes the signed maximum. -/
  | maxs (d : BitVec 6) (a : BitVec 6) (b : BitVec 6)
  /-- R154. Writes the unsigned minimum. -/
  | minu (d : BitVec 6) (a : BitVec 6) (b : BitVec 6)
  /-- R154. Writes the unsigned maximum. -/
  | maxu (d : BitVec 6) (a : BitVec 6) (b : BitVec 6)
  /-- R156. Selects one of two scalar sources by a predicate. -/
  | sel (d : BitVec 6) (a : BitVec 6) (b : BitVec 6) (p : BitVec 3)
  /-- R157. Compares two scalar sources under a condition and writes a predicate. -/
  | cmp (c : BitVec 3) (p : BitVec 3) (a : BitVec 6) (b : BitVec 6)
  /-- R157. Compares a scalar source with a signed immediate and writes a predicate. -/
  | cmpi (c : BitVec 3) (p : BitVec 3) (a : BitVec 6) (i : BitVec 9)
  /-- R158. Combines two predicates by a logic operation into a predicate. -/
  | plog (d : BitVec 3) (a : BitVec 3) (b : BitVec 3) (o : BitVec 3)
  /-- R159. Writes base plus loop-level index times stride. -/
  | agen (d : BitVec 6) (a : BitVec 6) (b : BitVec 6) (l : BitVec 3)
  /-- R160. Extracts a bit field, zero- or sign-extended. -/
  | bxt (d : BitVec 6) (a : BitVec 6) (b : BitVec 6) (s : BitVec 1)
  /-- R160. Inserts low bits of a source into a bit field of a named register. -/
  | bin (d : BitVec 6) (a : BitVec 6) (b : BitVec 6)
  /-- R161. FP32 addition on scalar registers. -/
  | fadds (d : BitVec 6) (a : BitVec 6) (b : BitVec 6)
  /-- R161. FP32 multiplication on scalar registers. -/
  | fmuls (d : BitVec 6) (a : BitVec 6) (b : BitVec 6)
  /-- R161. FP32 fused multiply-add into a named scalar register. -/
  | ffmas (d : BitVec 6) (a : BitVec 6) (b : BitVec 6)
  /-- R157. Compares two FP32 values under a condition and writes a predicate. -/
  | fcmps (c : BitVec 3) (p : BitVec 3) (a : BitVec 6) (b : BitVec 6)
  /-- R162. Scalar conversion between FP32, BF16 and integers. -/
  | fcvts (d : BitVec 6) (a : BitVec 6) (k : BitVec 3)
  /-- R163. Reads a control register into a scalar destination. -/
  | csrr (d : BitVec 6) (n : BitVec 9)
  /-- R163. Writes a scalar value to a control register under its access codes. -/
  | csrw (a : BitVec 6) (n : BitVec 9)
  /-- R168. Reads a context or core counter. -/
  | crd (d : BitVec 6) (n : BitVec 9)
  /-- R169. Pushes a register range onto the spill stack, trapping below SSLIM. -/
  | pushm (a : BitVec 6) (b : BitVec 6) (f : BitVec 3)
  /-- R169. Pops a register range from the spill stack, trapping past SSTOP. -/
  | popm (a : BitVec 6) (b : BitVec 6) (f : BitVec 3)
  /-- R171. Transfers to a PC-relative bundle offset. -/
  | br (i : BitVec 15)
  /-- R171. Writes the return address and transfers PC-relative. -/
  | call (d : BitVec 6) (i : BitVec 15)
  /-- R171. Writes the return address and transfers to a register target. -/
  | callr (d : BitVec 6) (a : BitVec 6)
  /-- R171. Transfers to a register target. -/
  | ret (a : BitVec 6)
  /-- R171. Transfers to a register base plus a bundle offset. -/
  | jr (a : BitVec 6) (i : BitVec 9)
  /-- R172. Opens a zero-overhead loop level with a register count. -/
  | loop (l : BitVec 5) (a : BitVec 6)
  /-- R172. Opens a zero-overhead loop level with an immediate count. -/
  | loopImm (l : BitVec 5) (c : BitVec 12)
  /-- R174. Pops k loop levels and transfers past the outermost popped body. -/
  | loopx (k : BitVec 3)
  /-- R177. Repeats the vector slots of the next bundle a register count of times with stepped specifiers. -/
  | repv (s : BitVec 3) (a : BitVec 6)
  /-- R177. Repeats the vector slots of the next bundle an immediate count of times. -/
  | repvImm (s : BitVec 3) (c : BitVec 12)
  /-- R178. Enters a control-store micro-sequence, saving MACPC. -/
  | layer (n : BitVec 15)
  /-- R178. Returns from a micro-sequence to MACPC + 16. -/
  | lret
  /-- R179. Reads a task descriptor and delivers it to a kiosk as a PKG release. -/
  | tspawn (a : BitVec 6)
  /-- R180. Waits for the context's accesses, performs the join update and ends the task by swap. -/
  | texit (a : BitVec 6)
  /-- R181. Stalls until a join word's COUNT reaches TARGET, then returns its failure summary as an acquire. -/
  | tjoin (d : BitVec 6) (a : BitVec 6)
  /-- R182. Stalls until a sync word's generation differs from a value, then acquires. -/
  | waitSw (s : BitVec 3) (a : BitVec 6) (b : BitVec 6)
  /-- R182. Stalls until a barrier slot's phase differs from a value, then acquires. -/
  | waitBs (s : BitVec 3) (a : BitVec 6) (b : BitVec 6)
  /-- R183. Swaps the context out when an admitting entry waits in its band or higher. -/
  | yield
  /-- R184. Claims up to n host ingress entries of the die for performing. -/
  | hwin (n : BitVec 9)
  /-- R185. Requests an operating-point transition, limited by OPLIM and the lease. -/
  | opsel (k : BitVec 3)
  /-- R186. Sets the context's fidelity level and starts rail settling. -/
  | fidset (f : BitVec 2)
  /-- R187. Replaces a sensor subscription slot with a notify word, threshold and direction. -/
  | psub (a : BitVec 6) (b : BitVec 6) (s : BitVec 3)
  /-- R188. Reads the 64-bit reference count. -/
  | rdtick (d : BitVec 6)
  /-- R189. Takes the software-trap cause after its bundle commits. -/
  | trap (n : BitVec 9)
  /-- R189. Takes the supervisor-call cause after its bundle commits. -/
  | svc (n : BitVec 9)
  /-- R339. Restores STW from ESTW, reinstates set-aside state and transfers to EPC. -/
  | eret
  /-- R191. Rereads the range-table copy and clears cached leaves for one ASID. -/
  | tlbir (a : BitVec 6)
  /-- R191. Rereads range-table copies and clears cached leaves for every ASID. -/
  | tlbirAll (a : BitVec 6)
  /-- R245. Loads a byte, sign-extended. -/
  | ldbS (d : BitVec 6) (a : BitVec 6) (f : BitVec 1) (i : BitVec 8)
  /-- R245. Loads a byte, zero-extended. -/
  | ldbU (d : BitVec 6) (a : BitVec 6) (f : BitVec 1) (i : BitVec 8)
  /-- R245. Loads two bytes, sign-extended. -/
  | ldhS (d : BitVec 6) (a : BitVec 6) (f : BitVec 1) (i : BitVec 8)
  /-- R245. Loads two bytes, zero-extended. -/
  | ldhU (d : BitVec 6) (a : BitVec 6) (f : BitVec 1) (i : BitVec 8)
  /-- R245. Loads four bytes, sign-extended. -/
  | ldwS (d : BitVec 6) (a : BitVec 6) (f : BitVec 1) (i : BitVec 8)
  /-- R245. Loads four bytes, zero-extended. -/
  | ldwU (d : BitVec 6) (a : BitVec 6) (f : BitVec 1) (i : BitVec 8)
  /-- R245. Loads eight bytes. -/
  | lddS (d : BitVec 6) (a : BitVec 6) (f : BitVec 1) (i : BitVec 8)
  /-- R245. Loads eight bytes, same effect as LDD.S. -/
  | lddU (d : BitVec 6) (a : BitVec 6) (f : BitVec 1) (i : BitVec 8)
  /-- R245. Stores one byte, plain or as a release. -/
  | stb (d : BitVec 6) (a : BitVec 6) (f : BitVec 1) (i : BitVec 8)
  /-- R245. Stores two bytes. -/
  | sth (d : BitVec 6) (a : BitVec 6) (f : BitVec 1) (i : BitVec 8)
  /-- R245. Stores four bytes. -/
  | stw (d : BitVec 6) (a : BitVec 6) (f : BitVec 1) (i : BitVec 8)
  /-- R245. Stores eight bytes. -/
  | std (d : BitVec 6) (a : BitVec 6) (f : BitVec 1) (i : BitVec 8)
  /-- R246. Atomic compare-and-swap returning the old value. -/
  | cas (d : BitVec 6) (a : BitVec 6) (b : BitVec 6) (o : BitVec 2) (w : BitVec 1)
  /-- R248. Orders later masked-class accesses after earlier ones at a scope. -/
  | fence (s : BitVec 3) (m : BitVec 16)
  /-- R249. Waits for writes to its own instruction and control-store windows and refetches. -/
  | synci
  /-- R250. Stalls until every earlier access, started copy and begun segment has performed. -/
  | synca
  /-- R250. As SYNCA, and also waits for buffered copy commands and queued streams. -/
  | syncaAll
  /-- R246. Atomic add returning the old value. -/
  | amoAdd (d : BitVec 6) (a : BitVec 6) (b : BitVec 6) (o : BitVec 2) (w : BitVec 1)
  /-- R246. Atomic AND returning the old value. -/
  | amoAnd (d : BitVec 6) (a : BitVec 6) (b : BitVec 6) (o : BitVec 2) (w : BitVec 1)
  /-- R246. Atomic OR returning the old value. -/
  | amoOr (d : BitVec 6) (a : BitVec 6) (b : BitVec 6) (o : BitVec 2) (w : BitVec 1)
  /-- R246. Atomic XOR returning the old value. -/
  | amoXor (d : BitVec 6) (a : BitVec 6) (b : BitVec 6) (o : BitVec 2) (w : BitVec 1)
  /-- R246. Atomic signed minimum. -/
  | amoMin (d : BitVec 6) (a : BitVec 6) (b : BitVec 6) (o : BitVec 2) (w : BitVec 1)
  /-- R246. Atomic signed maximum. -/
  | amoMax (d : BitVec 6) (a : BitVec 6) (b : BitVec 6) (o : BitVec 2) (w : BitVec 1)
  /-- R246. Atomic unsigned minimum. -/
  | amoMinu (d : BitVec 6) (a : BitVec 6) (b : BitVec 6) (o : BitVec 2) (w : BitVec 1)
  /-- R246. Atomic unsigned maximum. -/
  | amoMaxu (d : BitVec 6) (a : BitVec 6) (b : BitVec 6) (o : BitVec 2) (w : BitVec 1)
  /-- R246. Atomic swap returning the old value. -/
  | amoSwap (d : BitVec 6) (a : BitVec 6) (b : BitVec 6) (o : BitVec 2) (w : BitVec 1)
  /-- R246. Atomic FP32 add on a 4-byte word, merging flags on return. -/
  | amoFadd32 (d : BitVec 6) (a : BitVec 6) (b : BitVec 6) (o : BitVec 2)
  /-- R251. Arms a barrier slot with a count and scope in one atomic write. -/
  | bars (s : BitVec 3) (a : BitVec 6) (b : BitVec 6)
  /-- R251. Arrives at a barrier slot announcing bytes and returns the prior phase. -/
  | bara (d : BitVec 6) (a : BitVec 6) (b : BitVec 6)
  /-- R251. Disarms a barrier slot. -/
  | barrt (a : BitVec 6)
  /-- R252. Arrives at a barrier-network identifier and stalls until its generation advances. -/
  | barn (s : BitVec 3) (i : BitVec 4)
  /-- R252. Arrives at a barrier-network identifier and commits at once without acquire. -/
  | barnA (s : BitVec 3) (i : BitVec 4)
  /-- R262. Takes a free circuit handle and launches a lantern to a far core. -/
  | copen (d : BitVec 6) (a : BitVec 6) (b : BitVec 6)
  /-- R262. Extends the lease of an OPEN circuit. -/
  | chold (d : BitVec 6) (a : BitVec 6) (b : BitVec 6)
  /-- R262. Closes a circuit handle according to its state. -/
  | cclose (a : BitVec 6)
  /-- R262. Returns a circuit handle's status word. -/
  | cstat (d : BitVec 6) (a : BitVec 6)
  /-- R266. Reads a work request and hands it to a network engine. -/
  | npost (d : BitVec 6) (a : BitVec 6)
  /-- R200. Element-wise floating addition. -/
  | vadd (v : Cluster) (d : BitVec 6) (a : BitVec 6) (b : BitVec 6) (m : BitVec 3)
  /-- R200. Element-wise floating subtraction. -/
  | vsub (v : Cluster) (d : BitVec 6) (a : BitVec 6) (b : BitVec 6) (m : BitVec 3)
  /-- R200. Element-wise floating multiplication. -/
  | vmul (v : Cluster) (d : BitVec 6) (a : BitVec 6) (b : BitVec 6) (m : BitVec 3)
  /-- R200. Element-wise fused multiply-add into the destination. -/
  | vfma (v : Cluster) (d : BitVec 6) (a : BitVec 6) (b : BitVec 6) (m : BitVec 3)
  /-- R200. Element-wise fused multiply-subtract. -/
  | vfms (v : Cluster) (d : BitVec 6) (a : BitVec 6) (b : BitVec 6) (m : BitVec 3)
  /-- R200. Element-wise negated fused multiply-add. -/
  | vfnma (v : Cluster) (d : BitVec 6) (a : BitVec 6) (b : BitVec 6) (m : BitVec 3)
  /-- R200. Element-wise floating minimum. -/
  | vmin (v : Cluster) (d : BitVec 6) (a : BitVec 6) (b : BitVec 6) (m : BitVec 3)
  /-- R200. Element-wise floating maximum. -/
  | vmax (v : Cluster) (d : BitVec 6) (a : BitVec 6) (b : BitVec 6) (m : BitVec 3)
  /-- R200. Clears each element's sign bit. -/
  | vabs (v : Cluster) (d : BitVec 6) (a : BitVec 6) (m : BitVec 3)
  /-- R200. Inverts each element's sign bit. -/
  | vneg (v : Cluster) (d : BitVec 6) (a : BitVec 6) (m : BitVec 3)
  /-- R201. Correctly rounded reciprocal of each element. -/
  | vrcp (v : Cluster) (d : BitVec 6) (a : BitVec 6) (m : BitVec 3)
  /-- R201. Correctly rounded reciprocal square root of each element. -/
  | vrsq (v : Cluster) (d : BitVec 6) (a : BitVec 6) (m : BitVec 3)
  /-- R201. Correctly rounded base-2 exponential of each element. -/
  | vexp2 (v : Cluster) (d : BitVec 6) (a : BitVec 6) (m : BitVec 3)
  /-- R201. Correctly rounded base-2 logarithm of each element. -/
  | vlog2 (v : Cluster) (d : BitVec 6) (a : BitVec 6) (m : BitVec 3)
  /-- R202. Element-wise integer addition, wrapping or saturating. -/
  | viadd (v : Cluster) (d : BitVec 6) (a : BitVec 6) (b : BitVec 6) (m : BitVec 3)
  /-- R202. Element-wise integer subtraction. -/
  | visub (v : Cluster) (d : BitVec 6) (a : BitVec 6) (b : BitVec 6) (m : BitVec 3)
  /-- R202. Element-wise integer multiplication. -/
  | vimul (v : Cluster) (d : BitVec 6) (a : BitVec 6) (b : BitVec 6) (m : BitVec 3)
  /-- R202. Element-wise integer multiply-add into the destination. -/
  | vimad (v : Cluster) (d : BitVec 6) (a : BitVec 6) (b : BitVec 6) (m : BitVec 3)
  /-- R202. Element-wise integer minimum. -/
  | vimin (v : Cluster) (d : BitVec 6) (a : BitVec 6) (b : BitVec 6) (m : BitVec 3)
  /-- R202. Element-wise integer maximum. -/
  | vimax (v : Cluster) (d : BitVec 6) (a : BitVec 6) (b : BitVec 6) (m : BitVec 3)
  /-- R203. Lane-wise AND. -/
  | vand (v : Cluster) (d : BitVec 6) (a : BitVec 6) (b : BitVec 6) (m : BitVec 3)
  /-- R203. Lane-wise OR. -/
  | vor (v : Cluster) (d : BitVec 6) (a : BitVec 6) (b : BitVec 6) (m : BitVec 3)
  /-- R203. Lane-wise XOR. -/
  | vxor (v : Cluster) (d : BitVec 6) (a : BitVec 6) (b : BitVec 6) (m : BitVec 3)
  /-- R203. Lane-wise NOT. -/
  | vnot (v : Cluster) (d : BitVec 6) (a : BitVec 6) (m : BitVec 3)
  /-- R203. Element-wise left shift. -/
  | vshl (v : Cluster) (d : BitVec 6) (a : BitVec 6) (b : BitVec 6) (m : BitVec 3)
  /-- R203. Element-wise logical right shift. -/
  | vshr (v : Cluster) (d : BitVec 6) (a : BitVec 6) (b : BitVec 6) (m : BitVec 3)
  /-- R203. Element-wise arithmetic right shift. -/
  | vsra (v : Cluster) (d : BitVec 6) (a : BitVec 6) (b : BitVec 6) (m : BitVec 3)
  /-- R204. Floating compare writing a lane mask. -/
  | vcmp (v : Cluster) (c : BitVec 3) (d : BitVec 3) (a : BitVec 6) (b : BitVec 6) (m : BitVec 3)
  /-- R204. Integer compare writing a lane mask. -/
  | vicmp (v : Cluster) (c : BitVec 3) (d : BitVec 3) (a : BitVec 6) (b : BitVec 6) (m : BitVec 3)
  /-- R205. Selects lanes of two sources by a mask. -/
  | vsel (v : Cluster) (d : BitVec 6) (a : BitVec 6) (b : BitVec 6) (k : BitVec 3)
  /-- R206. Compare-exchanges (value, index) pairs held in register pairs. -/
  | vcx (v : Cluster) (x : BitVec 1) (a : BitVec 6) (b : BitVec 6) (m : BitVec 3)
  /-- R207. Converts elements between formats into a part of the destination. -/
  | vcvt (v : Cluster) (d : BitVec 6) (a : BitVec 6) (p : BitVec 2) (t : BitVec 4) (m : BitVec 3)
  /-- R210. Quantises FP32 elements into four blocks of a tile-row image. -/
  | vqnt (v : Cluster) (d : BitVec 6) (a : BitVec 6) (p : BitVec 2) (f : BitVec 2)
  /-- R211. Expands a part of a block tile-row image to exact FP32. -/
  | vdqnt (v : Cluster) (d : BitVec 6) (a : BitVec 6) (p : BitVec 2) (m : BitVec 3)
  /-- R209. Counts enabled elements into the cluster's exponent histogram. -/
  | vhist (v : Cluster) (a : BitVec 6) (m : BitVec 3)
  /-- R209. Reads the histogram bins into a vector. -/
  | vhclrRd (v : Cluster) (d : BitVec 6)
  /-- R209. Clears every histogram bin. -/
  | vhclr (v : Cluster)
  /-- R209. Reads the histogram bins into a vector, then clears them. -/
  | vhclrRdc (v : Cluster) (d : BitVec 6)
  /-- R208. Copies lanes and sets the destination tag without conversion. -/
  | vtag (v : Cluster) (d : BitVec 6) (a : BitVec 6) (t : BitVec 4) (m : BitVec 3)
  /-- R212. Reduces a vector to a scalar by an operation. -/
  | vreds (v : Cluster) (d : BitVec 6) (a : BitVec 6) (o : BitVec 3) (m : BitVec 3)
  /-- R213. Inclusive scan over elements by an operation. -/
  | vscan (v : Cluster) (d : BitVec 6) (a : BitVec 6) (o : BitVec 3) (m : BitVec 3)
  /-- R214. Permutes lanes by an index vector. -/
  | vperm (v : Cluster) (d : BitVec 6) (a : BitVec 6) (b : BitVec 6) (m : BitVec 3)
  /-- R214. Rearranges lanes of two sources by a fixed pattern. -/
  | vshuf (v : Cluster) (d : BitVec 6) (a : BitVec 6) (b : BitVec 6) (p : BitVec 3)
  /-- R214. Broadcasts a scalar to every lane with a tag. -/
  | vbcastS (v : Cluster) (d : BitVec 6) (a : BitVec 6) (t : BitVec 4)
  /-- R214. Broadcasts one lane of a vector to every lane. -/
  | vbcastL (v : Cluster) (d : BitVec 6) (a : BitVec 6) (k : BitVec 6)
  /-- R214. Writes base plus lane times step in every lane. -/
  | viota (v : Cluster) (d : BitVec 6) (a : BitVec 6) (b : BitVec 6) (m : BitVec 3)
  /-- R208. Copies enabled lanes and the tag. -/
  | vmov (v : Cluster) (d : BitVec 6) (a : BitVec 6) (m : BitVec 3)
  /-- R208. Writes a register of the other cluster. -/
  | vxfer (v : Cluster) (d : BitVec 6) (a : BitVec 6) (m : BitVec 3)
  /-- R215. Combines two masks bit by bit. -/
  | mlog (v : Cluster) (d : BitVec 6) (a : BitVec 6) (b : BitVec 6) (o : BitVec 3)
  /-- R215. Counts ones of a masked mask into a scalar. -/
  | mpop (v : Cluster) (d : BitVec 6) (a : BitVec 6) (m : BitVec 3)
  /-- R215. Finds the lowest set bit of a masked mask. -/
  | mffs (v : Cluster) (d : BitVec 6) (a : BitVec 6) (m : BitVec 3)
  /-- R215. Moves a mask to a scalar. -/
  | mmovs (v : Cluster) (d : BitVec 6) (a : BitVec 6)
  /-- R215. Moves a scalar to a mask. -/
  | mfroms (v : Cluster) (d : BitVec 6) (a : BitVec 6)
  /-- R216. Loads a contiguous vector with a tag as one wide access. -/
  | ldv (v : Cluster) (d : BitVec 6) (a : BitVec 6) (t : BitVec 4) (m : BitVec 3)
  /-- R216. Stores a contiguous vector as one wide access. -/
  | stv (v : Cluster) (a : BitVec 6) (b : BitVec 6) (m : BitVec 3)
  /-- R216. Loads lanes at a signed stride. -/
  | ldvs (v : Cluster) (d : BitVec 6) (a : BitVec 6) (b : BitVec 6) (m : BitVec 3)
  /-- R216. Gathers lanes at base plus per-lane offsets. -/
  | gath (v : Cluster) (d : BitVec 6) (a : BitVec 6) (b : BitVec 6) (m : BitVec 3)
  /-- R216. Scatters lanes to base plus per-lane offsets. -/
  | scat (v : Cluster) (d : BitVec 6) (a : BitVec 6) (b : BitVec 6) (m : BitVec 3)
  /-- R227. Writes a tile configuration, zeroing the tile when it changes. -/
  | tcfg (d : BitVec 6) (a : BitVec 6)
  /-- R227. Reads a tile configuration into a scalar. -/
  | tcfgRd (d : BitVec 6) (a : BitVec 6)
  /-- R227. Zeroes every byte of a tile. -/
  | tzero (d : BitVec 6)
  /-- R228. Loads the active rows of a tile from memory under a row plan. -/
  | tld (d : BitVec 6) (a : BitVec 6) (b : BitVec 6) (n : BitVec 2)
  /-- R228. Stores the active rows of a tile to memory under a row plan. -/
  | tst (d : BitVec 6) (a : BitVec 6) (b : BitVec 6) (n : BitVec 2)
  /-- R230. Writes a tile row from a vector. -/
  | trwr (d : BitVec 6) (a : BitVec 6) (b : BitVec 6)
  /-- R230. Reads a tile row into a vector. -/
  | trrd (d : BitVec 6) (a : BitVec 6) (b : BitVec 6)
  /-- R230. Writes a tile column from a vector. -/
  | tcwr (d : BitVec 6) (a : BitVec 6) (b : BitVec 6)
  /-- R230. Reads a tile column into a vector. -/
  | tcrd (d : BitVec 6) (a : BitVec 6) (b : BitVec 6)
  /-- R227. Writes a row or column mask. -/
  | tmsk (d : BitVec 6) (a : BitVec 6)
  /-- R227. Reads a row or column mask into a scalar. -/
  | tmskRd (d : BitVec 6) (a : BitVec 6)
  /-- R232. Matrix multiply of two tiles into an accumulator or ranked lists. -/
  | mma (d : BitVec 6) (a : BitVec 6) (b : BitVec 6) (n : BitVec 2)
  /-- R232. Complex matrix multiply into a plain accumulator. -/
  | mmac (d : BitVec 6) (a : BitVec 6) (b : BitVec 6) (n : BitVec 2)
  /-- R234. Bounded matrix multiply that skips when its bound cannot reach any list. -/
  | mmab (d : BitVec 6) (a : BitVec 6) (b : BitVec 6) (n : BitVec 2)
  /-- R235. Zeroes an accumulator as FLOAT. -/
  | aczF (d : BitVec 6)
  /-- R235. Zeroes an accumulator as INT. -/
  | aczI (d : BitVec 6)
  /-- R235. Reads two accumulator rows into a vector. -/
  | acrd (d : BitVec 6) (a : BitVec 6) (b : BitVec 6)
  /-- R235. Writes two accumulator rows from a vector. -/
  | acwr (d : BitVec 6) (a : BitVec 6) (b : BitVec 6)
  /-- R235. Converts accumulator words into a tile's format. -/
  | accvt (d : BitVec 6) (a : BitVec 6) (n : BitVec 2)
  /-- R238. Declares an accumulator as ranked lists of length K. -/
  | rkdecl (d : BitVec 6) (v : BitVec 1) (k : BitVec 4) (r : BitVec 1)
  /-- R238. Releases a ranked accumulator back to FLOAT. -/
  | rkrel (d : BitVec 6)
  /-- R238. Offers vector (value, index) pairs to ranked lists. -/
  | rkins (d : BitVec 6) (a : BitVec 6) (b : BitVec 6) (m : BitVec 3)
  /-- R238. Offers the words of a plain accumulator to ranked lists. -/
  | rkacc (d : BitVec 6) (a : BitVec 6) (n : BitVec 2)
  /-- R240. Reads a list image and offers its pairs to ranked lists. -/
  | rkmerge (d : BitVec 6) (a : BitVec 6)
  /-- R240. Writes ranked lists of masked rows as a list image. -/
  | rkst (d : BitVec 6) (a : BitVec 6) (n : BitVec 2)
  /-- R240. Declares from a list image's header and merges the image. -/
  | rkld (d : BitVec 6) (a : BitVec 6)
  /-- R241. Reads each row's threshold into a vector. -/
  | rkth (d : BitVec 6) (a : BitVec 6)
  /-- R241. Reads each row's list length into a vector. -/
  | rklen (d : BitVec 6) (a : BitVec 6)
  /-- R254. Sets a copy dimension count and its strides. -/
  | cdim (e : Engine) (l : BitVec 3) (a : BitVec 6) (b : BitVec 6)
  /-- R254. Sets copy source, destination, element format and fill. -/
  | cset (e : Engine) (t : BitVec 4) (a : BitVec 6) (b : BitVec 6) (f : BitVec 1)
  /-- R254. Sets the copy stream label. -/
  | clab (e : Engine) (l : BitVec 8)
  /-- R257. Places a timed copy command in the engine's time-sorted buffer. -/
  | cpy (e : Engine) (r : BitVec 1) (q : BitVec 1) (h : BitVec 2) (a : BitVec 6) (s : BitVec 3)
  /-- R255. Binds a channel watermark to a home-window range. -/
  | cwm (e : Engine) (h : BitVec 2) (a : BitVec 6) (b : BitVec 6)
  /-- R255. Unbinds a channel watermark. -/
  | cwmOff (e : Engine) (h : BitVec 2)
  /-- R256. Binds a channel's deliveries to a sync word. -/
  | csync (e : Engine) (h : BitVec 2) (a : BitVec 6)
  /-- R256. Binds a channel's deliveries to a barrier slot. -/
  | csyncBs (e : Engine) (h : BitVec 2) (a : BitVec 6)
  /-- R259. Withdraws unstarted commands of one channel. -/
  | ccan (e : Engine) (h : BitVec 2)
  /-- R259. Withdraws unstarted commands of every channel. -/
  | ccanAll (e : Engine) (h : BitVec 2)
  /-- R260. Returns a channel or engine status item. -/
  | cqry (e : Engine) (d : BitVec 6) (h : BitVec 2) (i : BitVec 3)
  /-- R263. Queues a byte stream on a circuit handle. -/
  | csend (e : Engine) (r : BitVec 1) (h : BitVec 2) (a : BitVec 6) (b : BitVec 6) (s : BitVec 3)
  /-- R41. A 64-byte host write to KPORT delivers one descriptor to the kiosk. -/
  | kportWrite
  /-- R38. A kiosk accepts a delivered descriptor into its band, stamps it and assigns a task identifier, or refuses it. -/
  | taskAcceptance
  /-- R47. The kiosk selects an entry for a core whose shadow bank is free. -/
  | kioskSelect
  /-- R53. The preload engine checks the preload list and fills the shadow bank's registers, program, control store and ranges. -/
  | preload
  /-- R53. A preload item blocked behind the active task starts when its block clears. -/
  | preloadRangeUnblock
  /-- R49. An entry waiting over 2^20 ticks moves to the next higher band. -/
  | entryAging
  /-- R52. At each 4,096-tick boundary each kiosk samples and sends its band depths. -/
  | balanceSample
  /-- R52. At t + 256 each kiosk decides and sends moves of entries to its shallowest neighbour. -/
  | balanceDecide
  /-- R52. Moved entries enter the receiver's band no later than t + 320. -/
  | balanceArrival
  /-- R55. The shadow bank becomes active and the active bank shadow over 24 cycles. -/
  | swap
  /-- R58. The spill engine saves a departing context into a save slot and frees the shadow bank. -/
  | spill
  /-- R359. When the remaining budget reaches zero the context is swapped out and held as an overrun entry. -/
  | budgetExhausted
  /-- R61. A child's TEXIT updates its parent's join word atomically as a release. -/
  | joinUpdate
  /-- R363. A child ended by a cause updates its join word with the failure. -/
  | failedJoinUpdate
  /-- R65. A barrier identifier whose arrivals reach its count releases every participant and advances its generation. -/
  | barrierRelease
  /-- R64. A write to a barrier configuration register clears the arrival count and keeps the generation. -/
  | barcfgWrite
  /-- R335. A pending trap from completed work is taken at the next bundle boundary. -/
  | deferredTrap
  /-- R358. A context ended by a cause stops, drains, releases its resources and updates its join word. -/
  | contextEnd
  /-- R359. A machine check losing bank, instruction memory or control store reruns the task from its descriptor. -/
  | contextLost
  /-- R360. Adds budget to an overrun entry and makes it resumable. -/
  | kactAddBudget
  /-- R360. Ends a held task with cause 0x8F. -/
  | kactKill
  /-- R360. Discards an overrun entry's context and requeues it at the head of its band. -/
  | kactRerun
  /-- R226. A matrix instruction completes, clearing busy bits and setting its flags. -/
  | matrixComplete
  /-- R90. The matrix rails finish settling to a new fidelity level. -/
  | railSettled
  /-- R293. An operating-point transition finishes settling and the new point takes force. -/
  | opSettled
  /-- R296. A bundle whose weight would exceed ECAP is replaced by a stall bundle and retried next cycle. -/
  | stallBundle
  /-- R295. A firmware write to PWRCTL that lowers OPLIM starts a downward transition. -/
  | pwrctlWrite
  /-- R297. A write to BREQ requests a boost lease for a core's context. -/
  | boostLeaseRequest
  /-- R297. The Lodge answers a lease request within 24,000 ticks. -/
  | boostLeaseAnswer
  /-- R298. A lease whose ticks run out ends and the core drops to OP6. -/
  | boostLeaseEnd
  /-- R298. The Lodge revokes a lease to hold the power limit. -/
  | boostLeaseRevoke
  /-- R299. Every 4,096 ticks the sensors are sampled and subscriptions tested. -/
  | sensorSample
  /-- R301. The Lodge lowers a hot core's OPLIM by one point every 4,096 ticks. -/
  | thermalThrottle
  /-- R302. A context stopped at a group boundary is moved with its bank, footprint and program to a target core. -/
  | migration
  /-- R305. An RBUD write is judged by its SEQ and, if valid, sets the budget and starts a hold. -/
  | rackBudgetMessage
  /-- R392. A 100 ms hold ending without a newer message puts the floor budget in force. -/
  | rackBudgetHoldExpiry
  /-- R117. A host write enters the die's ingress buffer or performs at DRAM or apertures. -/
  | hostWrite
  /-- R118. A host read of a slice is answered after earlier host writes to that die are applied. -/
  | hostRead
  /-- R118. A claimed or applied host ingress entry performs as a class-15 write. -/
  | hostEntryPerform
  /-- R376. With AUTO set, an aged ingress head causes the die to apply every buffered entry. -/
  | ingressAgeExpiry
  /-- R376. A host read or host-window descriptor held AGE ticks with AUTO clear is refused. -/
  | hostRequestAgeExpiry
  /-- R376. Writing DRAIN applies every entry in the die's ingress buffer. -/
  | hwcfgDrain
  /-- R307. A TDISP message moves an interface between its states. -/
  | tdispRequest
  /-- R308. An SPDM request is answered with signed measurements or reports. -/
  | spdmRequest
  /-- R309. A tenant key delivered in an SPDM session is written to a key slot and bound. -/
  | keySlotInstall
  /-- R310. Writing GO starts a firmware hand-over by reading and verifying the image. -/
  | fwhoGo
  /-- R311. After serialising and freezing, the new instance starts on the serialised state at h. -/
  | handoverTrialStart
  /-- R312. A write to FWHB records the new instance's heartbeat. -/
  | heartbeat
  /-- R312. Each 1 ms probation interval is checked for a heartbeat. -/
  | heartbeatIntervalEnd
  /-- R311. At h + 200 ms the hand-over commits and the old instance is discarded. -/
  | handoverCommit
  /-- R395. The resumed old instance missing a heartbeat reloads the role or warm-resets. -/
  | oldInstanceHeartbeatMiss
  /-- R315. A cold reset brings the module up through boot verification, link training, self-test and table installation. -/
  | coldReset
  /-- R315. A warm reset repeats bring-up steps 2 to 6 keeping PKGID. -/
  | warmReset
  /-- R273. A firmware write to FPERM is checked and sets the trunk permit minima, or is refused. -/
  | fpermWrite
  /-- R275. A firmware write to a connection-table entry is checked and sets trunk slots, or is refused. -/
  | conntabWrite
  /-- R369. A write to ERRBASE sets a ring and resets HEAD, TAIL and LOST. -/
  | errbaseWrite
  /-- R7. A write to a register with no behaviour of its own sets its fields under their access codes. -/
  | registerWrite
  /-- R290. The Lodge installs a new link key in the idle slot at both ends. -/
  | linkKeyRotation
  /-- R290. Once the receiver reports ready, the transmitter switches to the new key slot. -/
  | keySelectorSwitch
  /-- R290. At least 1 ms after the switch the old slot is retired at the receiver. -/
  | keySlotRetire
  /-- R390. No ready report within 10 ms keeps the old key and retries. -/
  | keyInstallTimeout
  /-- R390. A link reaching 2^41 uses of one key is stopped and taken out of service. -/
  | keyUseLimit
  /-- R276. At each window start flow counts reset, idle entries free and hold-offs age. -/
  | turnstileWindow
  /-- R258. A buffered copy command starts at its issue tick once its engine is free. -/
  | copyCommandStart
  /-- R257. The engine issues one burst of a running command. -/
  | copyBurst
  /-- R257. A delivered burst performs at its destination, counts into its binding and fills watermark units. -/
  | burstPerform
  /-- R257. When every burst has performed the command performs its release and completes. -/
  | copyCommandComplete
  /-- R278. A turnstile launches a promotion lantern, one per tick. -/
  | lanternLaunch
  /-- R280. A lantern tries a hop, reserving a slot, backtracking or failing. -/
  | lanternHop
  /-- R281. A lantern's acknowledgement reaches the source, opening the circuit or starting the marked switch. -/
  | lanternAck
  /-- R384. A lantern unacknowledged after 2,048 ticks is abandoned and its slots swept. -/
  | lanternTimeout
  /-- R282. A circuit beat arrives at the landing entry and is held or performed. -/
  | circuitBeatArrival
  /-- R282. The mark arrives and the landing entry releases held bursts. -/
  | markArrival
  /-- R282. The release notice reaches the source and lifts the 8 KiB limit. -/
  | releaseNotice
  /-- R283. A promoted flow idle for a whole window sends a teardown. -/
  | flowDemotion
  /-- R283. The teardown acknowledgement releases the slots and returns the entry to counting. -/
  | teardownAck
  /-- R386. A segment commit notice of a promoted flow reaches the source. -/
  | commitNotice
  /-- R263. A queued CSEND stream starts once its handle is OPEN. -/
  | streamStart
  /-- R263. A stream segment whose bytes have performed is counted into its binding. -/
  | segmentCommit
  /-- R385. A circuit lease reaching zero ends the circuit after its segment in flight. -/
  | circuitLeaseExpiry
  /-- R385. A failed wavelength, crosspoint or trunk slot ends its circuits and is replaced by a spare. -/
  | glasshouseElementFailure
  /-- R219. An access outside the home window performs when its request arrives at its destination. -/
  | accessPerform
  /-- R219. A load value or write acknowledgement returns to the issuer. -/
  | accessResponse
  /-- R285. A response from a peer adjusts that peer's outstanding-byte cap. -/
  | ualinkResponse
  /-- R382. A request from another package is performed here or refused. -/
  | remoteRequest
  /-- R382. No response 1,200,000 ticks after a remote request ends its context. -/
  | remoteTimeout
  /-- R387. A link-layer replay of a flit, counted toward taking the station out of service. -/
  | linkReplay
  /-- R387. A station or port is taken out of service and its unacknowledged requests fail. -/
  | stationOutOfService
  /-- R266. A network segment acknowledged or performed is counted into CSW. -/
  | networkSegmentComplete
  /-- R383. A network request that cannot complete ends its context with 0xA5. -/
  | networkRequestFailure
  /-- R378. A corrected memory error starts a test of the affected row. -/
  | correctedError
  /-- R378. The row test ends, recording a soft error or sparing the row. -/
  | rowTestComplete
  /-- R379. Patrol scrub visits a DRAM unit and records uncorrectable data. -/
  | patrolScrub
  /-- R374. Firmware installs a new table version and sends drain markers. -/
  | interleaveInstall
  /-- R374. When every drain marker has arrived the old table version is discarded. -/
  | tableDrainComplete
  /-- R375. An interleave move of a 4 KiB unit ends and held requests perform at its new place. -/
  | unitMove
  /-- R136. A scalar or vector result of a committed instruction arrives in its named register or Trellis slot at its latency, or is discarded if its slot has been reclaimed. -/
  | resultArrival
  /-- R345. A bundle with UNIT 6, a header outside slot 0, a unit used twice or header bit 31 set reaches issue and faults before any slot commits. -/
  | illegalBundle
  /-- R144. A slot holding an unassigned OPC, enabled or disabled, takes cause 0x04 at its place in slot order. -/
  | unassignedOpcode
  deriving DecidableEq, Repr

/-- The row of the table that a happening is. -/
def Happening.instr : Happening → Instr
  | .kportWrite _ _ => .kportWrite
  | .taskAcceptance _ _ _ => .taskAcceptance
  | .kioskSelect _ => .kioskSelect
  | .preload _ => .preload
  | .preloadRangeUnblock _ => .preloadRangeUnblock
  | .entryAging _ _ => .entryAging
  | .balanceSample => .balanceSample
  | .balanceDecide => .balanceDecide
  | .balanceArrival _ => .balanceArrival
  | .swap _ => .swap
  | .spill _ => .spill
  | .budgetExhausted _ _ => .budgetExhausted
  | .joinUpdate _ _ _ => .joinUpdate
  | .failedJoinUpdate _ _ _ => .failedJoinUpdate
  | .barrierRelease _ _ _ => .barrierRelease
  | .barcfgWrite _ _ => .barcfgWrite
  | .deferredTrap _ => .deferredTrap
  | .contextEnd _ _ _ => .contextEnd
  | .contextLost _ _ => .contextLost
  | .kactAddBudget _ _ _ => .kactAddBudget
  | .kactKill _ _ => .kactKill
  | .kactRerun _ _ => .kactRerun
  | .matrixComplete _ _ => .matrixComplete
  | .railSettled _ => .railSettled
  | .opSettled _ => .opSettled
  | .stallBundle _ => .stallBundle
  | .pwrctlWrite _ _ => .pwrctlWrite
  | .boostLeaseRequest _ => .boostLeaseRequest
  | .boostLeaseAnswer _ _ => .boostLeaseAnswer
  | .boostLeaseEnd _ _ => .boostLeaseEnd
  | .boostLeaseRevoke _ => .boostLeaseRevoke
  | .sensorSample => .sensorSample
  | .thermalThrottle _ => .thermalThrottle
  | .migration _ _ => .migration
  | .rackBudgetMessage _ => .rackBudgetMessage
  | .rackBudgetHoldExpiry _ => .rackBudgetHoldExpiry
  | .hostWrite _ _ _ _ | .portRetry => .hostWrite
  | .hostRead _ _ _ => .hostRead
  | .hostEntryPerform _ => .hostEntryPerform
  | .ingressAgeExpiry _ => .ingressAgeExpiry
  | .hostRequestAgeExpiry _ => .hostRequestAgeExpiry
  | .hwcfgDrain _ _ => .hwcfgDrain
  | .tdispRequest _ _ => .tdispRequest
  | .spdmRequest _ => .spdmRequest
  | .keySlotInstall _ _ _ => .keySlotInstall
  | .fwhoGo _ _ => .fwhoGo
  | .handoverTrialStart => .handoverTrialStart
  | .heartbeat | .instanceStops => .heartbeat
  | .heartbeatIntervalEnd _ => .heartbeatIntervalEnd
  | .handoverCommit => .handoverCommit
  | .oldInstanceHeartbeatMiss => .oldInstanceHeartbeatMiss
  | .coldReset _ _ _ => .coldReset
  | .warmReset _ _ | .trunkDegraded _ _ => .warmReset
  | .fpermWrite _ _ => .fpermWrite
  | .conntabWrite _ _ _ => .conntabWrite
  | .errbaseWrite _ _ => .errbaseWrite
  | .registerWrite _ _ => .registerWrite
  | .linkKeyRotation _ => .linkKeyRotation
  | .keySelectorSwitch _ => .keySelectorSwitch
  | .keySlotRetire _ => .keySlotRetire
  | .keyInstallTimeout _ => .keyInstallTimeout
  | .keyUseLimit _ => .keyUseLimit
  | .turnstileWindow => .turnstileWindow
  | .copyCommandStart _ _ => .copyCommandStart
  | .copyBurst _ _ => .copyBurst
  | .burstPerform _ | .permitReturn _ _ _ => .burstPerform
  | .copyCommandComplete _ _ => .copyCommandComplete
  | .lanternLaunch _ _ => .lanternLaunch
  | .lanternHop _ => .lanternHop
  | .lanternAck _ => .lanternAck
  | .lanternTimeout _ => .lanternTimeout
  | .circuitBeatArrival _ => .circuitBeatArrival
  | .markArrival _ _ => .markArrival
  | .releaseNotice _ => .releaseNotice
  | .flowDemotion _ _ => .flowDemotion
  | .teardownAck _ _ => .teardownAck
  | .commitNotice _ _ _ => .commitNotice
  | .streamStart _ _ => .streamStart
  | .segmentCommit _ _ => .segmentCommit
  | .circuitLeaseExpiry _ _ => .circuitLeaseExpiry
  | .glasshouseElementFailure _ _ _ | .circuitFails _ _ | .flowFails _ _ => .glasshouseElementFailure
  | .accessPerform _ => .accessPerform
  | .accessResponse _ => .accessResponse
  | .ualinkResponse _ _ _ => .ualinkResponse
  | .remoteRequest _ _ _ _ => .remoteRequest
  | .remoteTimeout _ => .remoteTimeout
  | .linkReplay _ _ => .linkReplay
  | .stationOutOfService _ => .stationOutOfService
  | .networkSegmentComplete _ _ _ => .networkSegmentComplete
  | .networkRequestFailure _ _ => .networkRequestFailure
  | .correctedError _ _ => .correctedError
  | .rowTestComplete _ _ _ => .rowTestComplete
  | .patrolScrub _ | .uncorrectable _ => .patrolScrub
  | .interleaveInstall _ => .interleaveInstall
  | .tableDrainComplete | .regionDrainComplete => .tableDrainComplete
  | .unitMove _ => .unitMove
  | .resultArrival _ _ => .resultArrival
  | .illegalBundle => .illegalBundle
  | .unassignedOpcode => .unassignedOpcode

/-- R123: a slot that holds an operation: its group-end bit G and the operation. -/
structure Slot where
  g : Bool
  op : Instr
  deriving DecidableEq, Repr

end Sys2Proof
end

