-- ==== Sys2Proof/Machine/State.lean ====
section
/-! DEFINITION. The state of one module as plain data: the machine's shared parts, one core unpacked (the one whose slot is
being executed) and the others by linear core number, each with two context banks; the two ways a step can stop; and
the state right after a cold reset. Register files are lists read with a default, so that reading is total. -/

namespace Sys2Proof.Machine

/-- The machine's own reasons to stop. Traps, machine checks and endings of contexts are next states and stand nowhere here. -/
inductive Fault where
  /-- Raised by a happening that names a core, quad, die, link or other unit which the module does not have (R16 to
  R19). Safe: the part has no such unit, so no run of it is cut short. -/
  | noSuchUnit
  deriving DecidableEq, Repr

/-- The machine's reasons to refuse a step. -/
inductive Refusal where
  /-- Raised by an arm of `exec` for an instruction whose meaning is not written; safe, since nothing is claimed of it. -/
  | notModelled (mnemonic : String)
  deriving DecidableEq, Repr

/-! ### Registers -/

/-- R72: a vector register: 64 lanes of 32 bits and the format tag. -/
structure VReg where
  lanes : List W32
  tag : Nat
  deriving DecidableEq, Repr

/-- R136: a slot of a Trellis: its value and, while the value has not arrived, the number of the result it awaits. -/
structure TSlot (α : Type) where
  val : α
  await : Option Nat
  deriving DecidableEq, Repr

/-- R136: a Trellis: a ring of 16 slots and HEAD. -/
structure Trellis (α : Type) where
  slots : List (TSlot α)
  head : Nat
  deriving DecidableEq, Repr

/-- R130: what a slot can read or name as its destination inside a group. -/
inductive Res where
  | s (n : Nat)
  | v (c : Cluster) (n : Nat)
  | m (c : Cluster) (n : Nat)
  | p (n : Nat)
  | cr (n : Nat)
  deriving DecidableEq, Repr

/-- R136: whose Trellis a result goes to. -/
inductive TrellisOf where
  | s
  | v (c : Cluster)
  deriving DecidableEq, Repr

/-- R131, R136: where a result in flight goes. -/
inductive ResultDest where
  | named (r : Res)
  | trellis (t : TrellisOf)
  deriving DecidableEq, Repr

/-- R131, R136, R152: a result of a committed instruction that has not arrived. `due` is the cycle at which it arrives;
`none` while an access outside the home window has not answered. `lanes` are the lanes of a named vector register that it
is still the last to write, `setTag` whether it is the last to set the tag. -/
structure Result where
  rid : Nat
  dest : ResultDest
  due : Option Nat
  lanes : BitVec 64
  setTag : Bool
  deriving DecidableEq, Repr

/-- R136, R137: a result of the open group that will take a Trellis position at the group's end. -/
structure PendingPos where
  dest : TrellisOf
  sval : W64
  vval : VReg
  await : Option Nat
  deriving DecidableEq, Repr

/-- R129, R130: the open instruction group: whether one is open, the destinations its slots have named, the bundles at
whose end it was open, the PC of its first bundle, the loop indices at its start (R159), and its results that await a Trellis
position, oldest first. -/
structure Group where
  isOpen : Bool
  dests : List Res
  bundles : Nat
  firstPc : Nat
  idx : List W32
  pending : List PendingPos
  deriving DecidableEq, Repr

/-- R172: a level of the loop nest; addresses are byte offsets in the level's space. -/
structure Level where
  start : Nat
  last : Nat
  rem : W32
  idx : W32
  micro : Bool
  deriving DecidableEq, Repr

/-- R190, R339: what a return from a trap takes from ESTW and EPC at its commit: the slot and the repeat count it resumes with, and the
stopped slot that EPC and ESTW name. -/
structure Return where
  slot : Nat
  repc : Nat
  stopped : Nat
  deriving DecidableEq, Repr

/-- R170, R339: the target of a control transfer of the bundle being executed, and what a return from a trap brings with it. -/
structure Target where
  addr : Nat
  micro : Bool
  eret : Option Return
  deriving DecidableEq, Repr

/-- R177: a REPV in progress: the address and the space of the repeated bundle, and the stride. -/
structure Repeat where
  addr : Nat
  stride : Nat
  micro : Bool
  deriving DecidableEq, Repr

/-- R179, R181, R182, R240, R251, R252, R266: what a slot that stalls until an answer is waiting for: a read whose bytes
arrive at a time, an access with the phase reached, the release of a barrier generation, or circuit segments that had begun
(handle, stream, bytes committed). -/
inductive Wait where
  | none
  | timed (due : Nat) (bytes : List Byte)
  | access (id : Nat) (phase : Nat)
  | barrier (scope : Scope) (place : Nat) (id : Nat) (gen : Nat)
  | segments (l : List (Nat × Nat × Nat))
  deriving DecidableEq, Repr

/-- R337: the state a trap entry sets aside. -/
structure Aside where
  sq : Trellis W64
  qa : Trellis VReg
  qb : Trellis VReg
  group : Group
  loops : List Level
  repc : BitVec 16
  rep : Option Repeat
  xfer : Option Target
  wait : Wait
  soft : Option (BitVec 8 × W64 × Nat)
  split : List Res
  stopped : Nat
  deriving DecidableEq, Repr

/-- R335, R367: a deferred trap: its cause, its detail, the place in program order of the instruction it comes from, and the address that its
record concerns. -/
structure Deferred where
  code : BitVec 8
  tval : W64
  order : Nat
  addr : Nat
  deriving DecidableEq, Repr

/-- R113, R114: a copy channel's watermark register and, above MARK, the 16-byte units filled so far. -/
structure Watermark where
  base : Nat
  limit : Nat
  mark : Nat
  bound : Bool
  filled : List Nat
  deriving DecidableEq, Repr

/-- R72: a row of a tile: 128 data bytes and 32 side bytes. -/
structure TileRow where
  data : List Byte
  side : List Byte
  deriving DecidableEq, Repr

/-- R72, R221, R225: a tile with its configuration register, its dirty bit and its busy bits, kept as the cycles at which
they clear (`none`: clear); `wait` keeps WBUSY set until the access of that number has answered. -/
structure Tile where
  rows : List TileRow
  tc : BitVec 18
  dirty : Bool
  wbusy : Option Nat
  rbusy : Option Nat
  wait : Option Nat
  deriving DecidableEq, Repr

/-- R223: the kinds of an accumulator. -/
inductive AccKind where
  | float
  | int
  | ranked
  deriving DecidableEq, Repr

/-- R223, R225: an accumulator: its words by row and column (for a ranked one the lists in the layout of R223), its
state, and its busy bits. `mmaBusy` says that WBUSY was set by an MMA-class instruction, `wait` that it is set until the part of an
image that this access reads has come (R240). -/
structure Acc where
  kind : AccKind
  k : Nat
  dir : Bool
  vt : Bool
  len : List Nat
  words : List (List W32)
  wbusy : Option Nat
  rbusy : Option Nat
  mmaBusy : Bool
  wait : Option Nat
  deriving DecidableEq, Repr

/-- R226, R246, R355: a matrix instruction or AMO.FADD32 that completes later: the cycle (`none`: an access has yet to
answer), the flags it raised, the FEN in force at its issue, its PC, its unit and place in program order; its level, the group
sums it forms, which of them met a detection (R88, R89), and for a detection at F0 the slice. -/
structure Completion where
  mid : Nat
  due : Option Nat
  flags : BitVec 5
  fen : BitVec 5
  pc : BitVec 18
  unit : Nat
  order : Nat
  level : Nat
  groups : Nat
  dets : List Nat
  f0 : Option Nat
  deriving DecidableEq, Repr

/-- R256: the object a copy channel counts into. -/
inductive Binding where
  | none
  | sync (va : W64)
  | slot (va : W64)
  deriving DecidableEq, Repr

/-- R253: the staging state of a copy engine. -/
structure Staging where
  n : List Nat
  ss : List Int
  ds : List Int
  src : W64
  dst : W64
  efmt : Nat
  fill : Bool
  label : BitVec 8
  bind : List Binding
  deriving DecidableEq, Repr

/-- R257: a fired copy command: its number (which stands among those of accesses in program order), the task it belongs to and
the privilege it was fired at, the snapshot of the staging state, the channel and its binding, flags, scope, class, issue tick
and its bundle's place in program order. -/
structure Command where
  cid : Nat
  taskid : Nat
  priv : Bool
  staging : Staging
  ch : Nat
  bind : Binding
  acq : Bool
  rel : Bool
  scope : Scope
  cls : Nat
  tick : Nat
  order : Nat
  deriving DecidableEq, Repr

/-- R263: a CSEND stream, its number (which stands among those of accesses in program order): source home-window offset, destination device physical address and its virtual address,
length, binding, release, scope, class, and the bytes committed so far. -/
structure Stream where
  src : Nat
  dst : Nat
  len : Nat
  bind : Binding
  engine : Engine
  ch : Nat
  rel : Bool
  scope : Scope
  cls : Nat
  committed : Nat
  order : Nat
  cid : Nat
  deriving DecidableEq, Repr

/-- R261: the states of a circuit handle. -/
inductive HandleState where
  | free
  | pending
  | opened
  | closing
  | refused
  | lost
  deriving DecidableEq, Repr

/-- R261, R262: a circuit handle: its state, the far core, the backtracks of its lantern, the lease (granted ticks while
PENDING, else the tick at which it ends), its streams (the head is the running one when `running`), the tick at which
the segment in flight began, and whether the lease has expired under that segment. -/
structure Handle where
  st : HandleState
  far : Nat
  back : Nat
  lease : Nat
  streams : List Stream
  running : Bool
  expired : Bool
  gen : Nat
  deriving DecidableEq, Repr

/-- R187, R299: a PSUB subscription: sensor, threshold, direction, notify word, and whether it is armed. -/
structure Subscription where
  sensor : Nat
  threshold : Int
  falling : Bool
  word : W64
  armed : Bool
  deriving DecidableEq, Repr

/-- R34: a task descriptor. -/
structure Descriptor where
  plist : W64
  joinp : W64
  budget : Nat
  args : List W64
  pc : BitVec 18
  affv : Nat
  affk : Nat
  asid : Nat
  band : Nat
  fid : Nat
  wdef : Nat
  deriving DecidableEq, Repr

/-- R36: a preload list. -/
structure PreloadList where
  psrc : W64
  pdst : Nat
  plen : Nat
  cslen : Nat
  csrc : W64
  fplo : Nat
  fphi : Nat
  ranges : List (W64 × Nat × Nat)
  deriving DecidableEq, Repr

/-- R38, R57, R133, R298, R304: what identifies a task while the machine holds it: identifier, descriptor copy with its
budget filled in, acceptance tick, the quad of the kiosk it belongs to, logical linear core number, preload list,
save slot (quad and index), remaining budget in ticks, boost lease in ticks, and whether it was rerun once. -/
structure Task where
  taskid : Nat
  desc : Descriptor
  accepted : Nat
  quad : Nat
  logical : Nat
  plist : PreloadList
  slot : Option (Nat × Nat)
  budget : Nat
  lease : Nat
  rerun : Bool
  deriving DecidableEq, Repr

/-- R96: a range entry of the copy a core keeps (R101). -/
structure RangeEntry where
  valid : Bool
  rd : Bool
  wr : Bool
  amok : Bool
  kidx : Nat
  base : Nat
  sup : Bool
  limit : Nat
  offset : W64
  deriving DecidableEq, Repr

/-- R97, R101: a cached leaf: the virtual page, its size in bytes, and what it maps. -/
structure Leaf where
  asid : Nat
  page : Nat
  size : Nat
  target : Nat
  rd : Bool
  wr : Bool
  amok : Bool
  kidx : Nat
  sup : Bool
  deriving DecidableEq, Repr

/-- R248, R107: a FENCE that holds later accesses: its class mask, the accesses it waits for, and whether its scope is POD, at which an
access to another package has performed once it is acknowledged (R284). -/
structure Hold where
  mask : BitVec 16
  waits : List Nat
  pod : Bool
  deriving DecidableEq, Repr

/-- R358: an ending under way: the cause, its detail, the slot, whether it was deferred, and whether the join update has
been made or given up. -/
structure Ending where
  code : BitVec 8
  tval : W64
  k : Nat
  defer : Bool
  joined : Bool
  addr : Nat
  deriving DecidableEq, Repr

/-- R101: the state of memory that the page walks of a context use until the next TLBIR that names its ASID: the cells, the keys they are
under, and the tick at which it was taken. -/
structure TableView where
  mem : List Host.Cell
  keys : List (Nat × Nat × Nat)
  tick : Nat
  deriving DecidableEq, Repr

/-- R54: the state of one context bank. -/
structure Context where
  task : Option Task
  sreg : List W64
  preds : List Bool
  va : List VReg
  vb : List VReg
  ma : List W64
  mb : List W64
  sq : Trellis W64
  qa : Trellis VReg
  qb : Trellis VReg
  group : Group
  results : List Result
  nextRid : Nat
  loops : List Level
  rep : Option Repeat
  xfer : Option Target
  pc : BitVec 18
  stw : W64
  epc : W64
  estw : W64
  cause : W64
  tval : W64
  tvec : W64
  macpc : W64
  micpc : W64
  ssp : W64
  sslim : W64
  sstop : W64
  qpct : W64
  qbase : W64
  marks : List Watermark
  histA : List W32
  histB : List W32
  histReadyA : Nat
  histReadyB : Nat
  tiles : List Tile
  accs : List Acc
  rwm : List W32
  clm : List W32
  staging0 : Staging
  staging1 : Staging
  copied : List Nat
  withdrawn : List (Engine × Command)
  handles : List Handle
  psub : List (Option Subscription)
  bundles : W64
  estall : W64
  mskip : W64
  dstall : W64
  aside : List Aside
  firstCause : BitVec 8
  split : List Res
  deferred : List Deferred
  completions : List Completion
  holds : List Hold
  wait : Wait
  soft : Option (BitVec 8 × W64 × Nat)
  ending : Option Ending
  drain : Bool
  flagCycle : Nat
  flagsThen : BitVec 5
  runFrom : Option Nat
  pushBusy : Nat
  ranges : List RangeEntry
  tables : TableView
  order : Nat
  deriving DecidableEq, Repr

/-! ### Cores -/

/-- R56: why a swap was requested; a YIELD with the tick of its bundle's issue (R57). -/
inductive SwapReason where
  | exited
  | yielded (tick : Nat)
  | preempted
  | overrun
  | ended
  | migrated (target : Nat)
  | idle
  deriving DecidableEq, Repr

/-- R55, R302: what the active bank of a core is leaving for: nothing; a swap whose first bundle of cycle 25 issues at `at25`;
the 24 cycles of a migration's step 2, over at `ends`; or the copy of its step 4. -/
inductive Leaving where
  | no
  | swap (at25 : Nat)
  | settling (ends : Nat)
  | copying
  deriving DecidableEq, Repr

/-- R38, R46, R57, R359: a task entry of a kiosk: a new task, or the saved context of a resumable or overrun one with its
footprint image. `since` is when it entered its present band, `waited` the waiting time it brought with it (R48, R52),
`head` marks an entry put at its band's head (R360). -/
structure Entry where
  task : Task
  band : Nat
  since : Nat
  waited : Nat
  saved : Option (Context × List Byte)
  head : Bool
  deriving DecidableEq, Repr

/-- R53: the preload of a task: the entry it was selected from, the item it is at (1 to 4; 5 when all are filled) with the
range within item 4, the bytes of the present item filled so far, and whether it is blocked behind the active or a departed
context. A blocked item is not begun. -/
structure Preload where
  entry : Entry
  item : Nat
  range : Nat
  off : Nat
  blocked : Bool
  deriving DecidableEq, Repr

/-- What holds the shadow bank: nothing; a task with its preload (R50, R53); or a departed context that is being saved (R58),
with why it left and whether its bytes are already on their way to its slot. -/
inductive ShadowUse where
  | free
  | loaded
  | spilling (why : SwapReason) (written : Bool)
  deriving DecidableEq, Repr

/-- R185, R293: an operating-point transition: the target and the time at which its settling ends. -/
structure OpMove where
  target : Nat
  ends : Nat
  deriving DecidableEq, Repr

/-- R257: the burst that a command is issuing in parts, which go by several routes (R26, R284): its number, its address, its bytes, and how
many of them have been issued. -/
structure Whole where
  group : Nat
  va : Nat
  len : Nat
  done : Nat
  deriving DecidableEq, Repr

/-- R257, R258: the command a copy engine runs: its loop counters (level 1 first), the byte reached in the row, whether
every burst was issued, bursts not yet performed, whether it has faulted, and the burst of which parts are still to be issued. -/
structure Running where
  cmd : Command
  idx : List Nat
  off : Nat
  issued : Bool
  outstanding : Nat
  faulted : Bool
  uid : Nat
  part : Option Whole
  deriving DecidableEq, Repr

/-- R253, R258: a copy engine: its time-sorted buffer and the command it runs. -/
structure CopyEngine where
  buffer : List Command
  running : Option Running
  deriving DecidableEq, Repr

/-! ### The slot being executed -/

/-- How the slot being executed ended, for the step that called `exec`. -/
inductive SlotEnd where
  /-- the slot committed (R125) -/
  | committed
  /-- the slot has not committed; its bundle stalls (R131) -/
  | stalled
  /-- the slot took a trap, which has been entered (R335, R336), or its context is ending (R358) -/
  | stopped
  deriving DecidableEq, Repr

/-- R122 to R128, R131, R132, R177, R354: the bundle being executed: whether it has issued, its tick of issue, the slot
executed, that slot's extra bits, whether the bundle has a header, the named vector registers of which an earlier slot
of this bundle wrote a lane, what REPV adds to stepped specifiers, the cycles added to the issue of the next bundle, the address that a
record concerns, and the slot at which the bundle issued. -/
structure SlotCtx where
  issued : Bool
  tick : Nat
  k : Nat
  xb : BitVec 4
  hdr : Bool
  wrote : List Res
  repOff : Nat
  extra : Nat
  ended : SlotEnd
  concern : Nat
  first : Nat
  deriving DecidableEq, Repr

/-- R21: one core. `time` is when its current cycle begins, in units of time; `cycle` is counter 4 (R168). `countThen` holds the groups
and detections counted at each level in the cycle `countCycle`, which a write in that cycle leaves counted (R89). `linkFree` is the
time, in units, from which the link to its router can take the next packet (R268). -/
structure Core where
  slot : SlotCtx
  act : Context
  shd : Context
  shadow : ShadowUse
  preloads : List Preload
  swapReq : Option SwapReason
  leaving : Leaving
  imem : List (Nat × BitVec 128)
  cstore0 : List (Nat × BitVec 128)
  cstore1 : List (Nat × BitVec 128)
  half : Bool
  cycle : Nat
  time : Nat
  cestall : W64
  weights : List (Nat × Nat)
  op : Nat
  opMove : Option OpMove
  opHeld : Option Nat
  rail : Nat
  railEnds : Nat
  arrayFree : Nat
  merr : List (BitVec 48 × Bool)
  mgrp : List W64
  windowDet : List Nat
  countCycle : Nat
  countThen : List (Nat × Nat)
  engine0 : CopyEngine
  engine1 : CopyEngine
  leaves : List Leaf
  throttled : Bool
  retirePending : Bool
  linkFree : Nat
  deriving DecidableEq, Repr

/-! ### Kiosks -/

/-- R22, R37 to R52, R360: one kiosk. -/
structure Kiosk where
  bands : List (List Entry)
  seq : Nat
  rr : Nat
  samples : List Nat
  spaces : List Nat
  overrun : List Entry
  slotsUsed : List Nat
  copies : List Task
  arriving : List Entry
  deriving DecidableEq, Repr

/-! ### Accesses -/

/-- R103, R246: the atomic operations. -/
inductive AtomicOp where
  | add
  | and
  | or
  | xor
  | min
  | max
  | minu
  | maxu
  | swap
  | fadd32
  | cas (cmp : W64)
  deriving DecidableEq, Repr

/-- What an access does at the memory that holds its bytes (R92, R103, R104). -/
inductive AccessOp where
  | load
  | store (bytes : List Byte)
  | atomic (op : AtomicOp) (operand : W64)
  | arrive (tx : Int)
  | arm (count : Nat) (scope : Nat)
  | retire
  /-- R61, R363: a join update, of a TEXIT with its status or of a child ended by a cause. -/
  | joinEnd (status : Nat)
  | joinFail (cause : Nat)
  /-- R115, R116: bytes delivered are counted into a sync word or a barrier slot. -/
  | syncCount (n : Nat)
  | slotCount (n : Nat)
  /-- R252: an arrival at a barrier network. -/
  | barrier (scope : Scope) (place id : Nat)
  deriving DecidableEq, Repr

/-- One contiguous piece of an access: device physical address, length and, in memory that is encrypted, the key slot. -/
structure Piece where
  pa : Nat
  len : Nat
  key : Nat
  deriving DecidableEq, Repr

/-- Where the answer of an access goes. -/
inductive AccessReturn where
  | none
  | scalar (rid : Nat) (size : Nat) (signed : Bool)
  | vector (rid : Nat) (lanes : List Nat) (tag : Nat)
  | tile (t : Nat) (rows : List Nat)
  | waiting
  /-- R117, R118: to the host: the CXL tag, and whether it reads. -/
  | host (tag : Nat) (read : Bool)
  /-- R26: to the preload engine of a core, the spill engine of a core, or a network engine for a request of its. -/
  | preload (n : Nat)
  | save (n : Nat)
  | net (e seq : Nat)
  deriving DecidableEq, Repr

/-- R105, R109, R219, R382: an access whose effect or answer is still to come: who made it, its class and ordering, the
operand address, the pieces it touches, what it does, where its answer goes, how long its answer takes from its perform, what
has come of it, its place in program order, and for another package the tick at which its station sent it (R285). Numbers ascend
in program order. `pod` is set for a release at POD scope. An access whose pieces go to several packages or stations is held as
several, of one `group`; `parts` are the places of its pieces in the whole (R26, R284). `asid` is that of its context. -/
structure Access where
  id : Nat
  lcn : Nat
  taskid : Nat
  cls : Nat
  acq : Bool
  rel : Bool
  va : Nat
  pieces : List Piece
  op : AccessOp
  ret : AccessReturn
  latency : Nat
  performed : Bool
  answered : Bool
  data : List Byte
  flags : Nat
  failed : Option (BitVec 8 × W64)
  order : Nat
  sent : Option Nat
  pod : Bool
  group : Nat
  parts : List Nat
  asid : Nat
  deriving DecidableEq, Repr

/-- R257, R268, R276: a copy burst: its command and place in the command's order; where its bytes come from, to be read at
`stage` 0, then its bytes; its destination. At stage 1 it is to be injected, at stage 2 it is on its way, on the Promenade or on
the circuit of its flow, with its flow offset. `beats` of it have arrived there (R281), or, at stage 1, that many of its flits have been
sent to another die (R272). `rel` marks the last write of a copy under the release flag, with whether its scope is
POD (R109, R112). A burst whose bytes go by several routes is held as several of one `whole`; `last` is with the one that counts for all of
them once no other is left (R26, R284). -/
structure Burst where
  id : Nat
  lcn : Nat
  engine : Engine
  ch : Nat
  taskid : Nat
  uid : Nat
  order : Nat
  cls : Nat
  label : Nat
  bind : Binding
  src : List Piece
  srcVa : Nat
  va : Nat
  len : Nat
  dst : List Piece
  bytes : List Byte
  stage : Nat
  flow : Option (FlowId × Nat)
  circuit : Bool
  beats : Nat
  rel : Option Bool
  whole : Whole
  last : Bool
  deriving DecidableEq, Repr

/-- R117, R118: one entry of a die's host ingress buffer; the task that has claimed it with the number from which that task's accesses follow
the claim, and the entry's number in the order of arrival of all host writes. -/
structure HostEntry where
  addr : Nat
  bytes : List Byte
  enables : List Bool
  tick : Nat
  claimed : Option (Nat × Nat)
  serial : Nat
  deriving DecidableEq, Repr

/-- R40, R117, R118, R368: what arrives at the host port: a write or a read with its CXL tag, or a descriptor for a kiosk. -/
inductive HostOp where
  | write (addr : Nat) (bytes : List Byte) (enables : List Bool) (tag : Nat)
  | read (addr : Nat) (len tag : Nat)
  | kport (q : Nat) (bytes : List Byte)
  deriving DecidableEq, Repr

/-- R117: a host write to memory without a buffer, or a read behind one, that waits until the host writes which arrived before number
`serial` have performed. -/
structure HostHeld where
  op : HostOp
  serial : Nat
  deriving DecidableEq, Repr

/-- R118, R40, R376: a host request that waits behind ingress entries: a read with its CXL tag or a descriptor with its
kiosk, the number of entries it waits for, and its arrival tick. -/
structure HostWaiting where
  tag : Nat
  addr : Nat
  len : Nat
  kport : Option Nat
  bytes : List Byte
  behind : Nat
  tick : Nat
  deriving DecidableEq, Repr

/-- R118, R308, R376, R379: an answer the host receives; `none` is completion with error status. -/
structure HostAnswer where
  tag : Nat
  bytes : Option (List Byte)
  deriving DecidableEq, Repr

/-- R117, R118, R376: the host side of one compute die. -/
structure Ingress where
  entries : List HostEntry
  waiting : List HostWaiting
  lastClaim : Nat
  deriving DecidableEq, Repr

/-! ### The fabric -/

/-- R274, R275, R279: a place that has circuit slots: a core's transmit or receive attachment, an output of a crosspoint
(die, row, column, direction 0 north, 1 east, 2 south, 3 west), or a trunk slot of a die with its far die. -/
inductive Port where
  | tx (lcn : Nat)
  | rx (lcn : Nat)
  | out (die row col dir : Nat)
  | trunk (die far slot : Nat)
  deriving DecidableEq, Repr

/-- R262, R278: who a lantern or a circuit belongs to. -/
inductive CircuitOwner where
  | handle (taskid h : Nat)
  | flow (q entry : Nat)
  deriving DecidableEq, Repr

/-- R274: one slot held by a circuit or a lantern. -/
structure Held where
  port : Port
  owner : CircuitOwner
  deriving DecidableEq, Repr

/-- R280: the state of a lantern. -/
inductive LanternState where
  | probe
  | retry
  | ack
  | done
  deriving DecidableEq, Repr

/-- R279, R280, R384: a lantern: where from and to, the slots it holds (latest first) each with the choice taken, the
hop it is at, the candidate it tries, its backtracks and when it was launched. -/
structure Lantern where
  id : Nat
  owner : CircuitOwner
  src : Nat
  dst : Nat
  label : Nat
  path : List (Port × Nat)
  cand : Nat
  back : Nat
  st : LanternState
  launched : Nat
  deriving DecidableEq, Repr

/-- R276, R278, R280, R283: the state of a flow entry. -/
inductive FlowState where
  | counting
  | promoting
  | promoted
  | heldOff (windows : Nat)
  | demoting
  deriving DecidableEq, Repr

/-- R271, R276, R281, R282, R386: a flow entry of a turnstile: its window count, the flow bytes sent, the offset at which
the circuit began, whether the release notice has come, bytes sent on the circuit before it, the last committed offset, and the time, in
units, from which the circuit can take the next beat (R274). -/
structure Flow where
  flow : FlowId
  count : Nat
  offset : Nat
  st : FlowState
  mark : Nat
  released : Bool
  onCircuit : Nat
  committed : Nat
  circFree : Nat
  deriving DecidableEq, Repr

/-- R282, R386: a landing entry at a far core: the held circuit bursts in flow order, whether the mark has arrived, and
P, the offset up to which bursts have performed; `buffer` is how many bytes of beats the landing buffer holds. -/
structure Landing where
  flow : FlowId
  q : Nat
  entry : Nat
  held : List Burst
  marked : Bool
  upTo : Nat
  notified : Nat
  buffer : Nat
  deriving DecidableEq, Repr

/-- R275, R385: a die's share of the Glasshouse: trunk slots, crosspoints and wavelengths that have failed, the spare wavelengths that
are left, and the spares that stand in for a failed one, each with its trunk slot. -/
structure Glass where
  deadSlots : List Nat
  deadCross : List Nat
  deadWaves : List Nat
  spares : List Nat
  standIn : List (Nat × Nat)
  deriving DecidableEq, Repr

/-- R270: the message classes. -/
inductive MsgClass where
  | req
  | rsp
  | data
  | ctl
  | mgmt
  deriving DecidableEq, Repr

/-- R272, R388: the trunk port at a quad's router: its usable permits and the minima in force there, MREQ, MRSP, MDATA, MCTL, MMGT. -/
structure TrunkPort where
  usable : Nat
  minima : List Nat
  deriving DecidableEq, Repr

/-- R289: consecutive flits or packets of a link: the tick they were sent in, the slot that the bit of each names, the count of the first
under it, how many they are, and the key they are encrypted with. -/
structure FlitRun where
  tick : Nat
  selector : Bool
  first : Nat
  flits : Nat
  key : Nat
  deriving DecidableEq, Repr

/-- R289, R290, R387, R390: one direction of an encrypted link, a UALink station (0 to 7) or an Ethernet port (8 to 15); 16 to 31 are the
receiving directions of links 0 to 15. The slot its transmitter encrypts with, the key in each of its two slots by the number of its
install, the count of flits or packets sent under the slot in use, what is sent in the present tick (`flight`), the tick of the last
install, and how many times the flit `flit` has been replayed. -/
structure Link where
  selector : Bool
  slots : List (Option Nat)
  ready : Bool
  rotating : Bool
  attempts : Nat
  count : Nat
  retired : Bool
  installs : Nat
  switched : Nat
  replays : Nat
  inService : Bool
  flight : List FlitRun
  installed : Nat
  flit : Nat
  deriving DecidableEq, Repr

/-- R285: the cap on a peer package's outstanding bytes; `rose` is the tick of its last increase with the cap before it. -/
structure Peer where
  pkg : Nat
  cap : Nat
  outstanding : Nat
  acked : Nat
  lastCut : Option Nat
  rose : Option (Nat × Nat)
  deriving DecidableEq, Repr

/-- R265, R266, R288: a network request an engine holds, with the endpoint that its PEER names: address, job, delivery mode and key
slot. `posted` numbers the requests in posting order. -/
structure NetRequest where
  seq : Nat
  taskid : Nat
  lcn : Nat
  asid : Nat
  op : Nat
  port : Nat
  len : Nat
  laddr : W64
  raddr : W64
  peer : Nat
  rkey : W32
  csw : W64
  immv : W64
  done : Nat
  order : Nat
  posted : Nat
  addr : Nat
  job : Nat
  mode : Nat
  kslot : Nat
  deriving DecidableEq, Repr

/-- R287: what a network engine sends toward a peer: a send with its immediate value, a remote write or read under a key, or the bytes of a
segment of a request. -/
inductive NetOut where
  | send (seq port addr job kslot : Nat) (immv : W64) (len : Nat)
  | write (seq port addr job kslot : Nat) (raddr : W64) (rkey : W32) (len : Nat)
  | read (seq port addr job kslot : Nat) (raddr : W64) (rkey : W32) (len : Nat)
  | payload (seq offset : Nat) (bytes : List Byte)
  deriving DecidableEq, Repr

/-- R266, R287: the network engines of one I/O die: the requests they hold, the next sequence number, and what they have sent. -/
structure NetEngine where
  queue : List NetRequest
  seq : Nat
  out : List NetOut
  deriving DecidableEq, Repr

/-! ### Platform -/

/-- R63, R64: a barrier identifier of a scope's network in one place (quad, die or 0): arrivals, generation, and
releases under way (R65); and the arrivals that came and the releases that began in the tick `tick`, for a BARCFG write of that tick
(R66). -/
structure Barrier where
  scope : Scope
  place : Nat
  id : Nat
  count : Nat
  gen : Nat
  releasing : Nat
  tick : Nat
  fresh : Nat
  begun : Nat
  deriving DecidableEq, Repr

/-- R303: a CID remap entry: old and new linear core number and the task it belongs to. -/
structure Remap where
  old : Nat
  new : Nat
  taskid : Nat
  deriving DecidableEq, Repr

/-- R307: the TDISP interface states. -/
inductive TdispState where
  | configUnlocked
  | configLocked
  | run
  | error
  deriving DecidableEq, Repr

/-- R307: a TDISP interface. -/
structure Interface where
  st : TdispState
  quads : List Nat
  asids : List Nat
  ran : Bool
  scrubEnds : Option Nat
  deriving DecidableEq, Repr

/-- R25, R309: a key slot: whether a key stands in it, the interface it is bound to, the number of keys it has held, and the key
itself. -/
structure KeySlot where
  installed : Bool
  iface : Option Nat
  gen : Nat
  key : Nat
  deriving DecidableEq, Repr

/-- R310 to R313, R394, R395: the hand-over controller. `instant` is h, or during a fallback the tick of the resumption; `began` is h.
`taken` are the inputs that the running instance has taken since the freeze, `stopped` says that it has stopped, and `refused` that a GO
was refused while this hand-over is under way. -/
structure Handover where
  st : Nat
  role : Nat
  hbok : Nat
  sver : Nat
  image : Option FirmwareImage
  frozen : Bool
  beat : Bool
  instant : Nat
  began : Nat
  journal : List Happening
  running : List Nat
  watchOld : Bool
  taken : List Happening
  stopped : Bool
  refused : Bool
  deriving DecidableEq, Repr

/-- R297: the boost-lease request the Lodge has not answered. -/
structure LeaseAsk where
  cid : Nat
  ticks : Nat
  deriving DecidableEq, Repr

/-- R305, R392: rack budget. -/
structure Rack where
  inForce : Nat
  last : W32
  ignored : Nat
  deadline : Option Nat
  floor : Bool
  deriving DecidableEq, Repr

/-- R374, R375: the package's tables: version, the LPDDR6 channel of each 4 KiB unit modulo 32 (`map`), the older
version while it drains, the installs that wait, the units in motion, and the number from which requests carry the present version.
Of the region table, whose present CID remap entries State holds: its version, the entries that only the older version has while it
drains, the number from which requests carry the present one, and the tasks whose entries the next version frees. -/
structure Tables where
  version : Nat
  map : List Nat
  old : Option (List Nat)
  waiting : List (List Nat)
  moving : List Nat
  since : Nat
  region : Nat
  departed : Option (List Remap)
  regionSince : Nat
  toFree : List Nat
  deriving DecidableEq, Repr

/-- R377, R378, R379: soft errors and lasting faults: rows under test, spares used, and the local addresses at which an
uncorrectable protected unit begins (64 bytes in DRAM, 8 bytes in a scratchpad). -/
structure Health where
  testing : List (MemPlace × Nat)
  spared : List (MemPlace × Nat)
  bad : List Nat
  deriving DecidableEq, Repr

/-- R367: what an error record says, apart from SEQ and TICK. `reporter` is the core that reports one which names no core. -/
structure Rec where
  area : Nat
  cause : Nat := 0xFF
  event : Nat := 0
  taskid : Nat := 0xFFFFFFFF
  asid : Option Nat := none
  cid : Option Nat := none
  flags : Nat := 0
  ifc : Option Nat := none
  pc : Nat := 0
  tval : Nat := 0
  addr : Nat := 0
  aux : Nat := 0
  reporter : Option Nat := none
  deriving DecidableEq, Repr

/-- R300, R367: what the Lodge writes for a report: an error record, or an event at a notify word (key slot, device physical address,
SRC, KIND, INFO, VALUE, AUX). -/
inductive ReportBody where
  | record (r : Rec)
  | notify (key pa src kind info : Nat) (value : Int) (aux : Nat)
  deriving DecidableEq, Repr

/-- R370: a report that has come to the Lodge and is not numbered yet: its source (0 memory controllers, 1 fabric, 2 cores, 3 host port, 4
firmware; and of cores the linear core number), the tick of its detection, and what is to be written. -/
structure Report where
  source : Nat × Nat
  tick : Nat
  body : ReportBody
  deriving DecidableEq, Repr

/-- The state of the machine. -/
structure State where
  time : Nat
  free : Nat
  nextId : Nat
  seq : W64
  reports : List Report
  agenda : List (Nat × Happening)
  happening : Happening
  lcn : Nat
  core : Core
  others : List (Nat × Core)
  regs : List (Nat × W64)
  mem : List Host.Cell
  unitKey : List (Nat × Nat × Nat)
  keys : List (Nat × KeySlot)
  kiosks : List (Nat × Kiosk)
  accesses : List Access
  bursts : List Burst
  barriers : List Barrier
  ingress : List (Nat × Ingress)
  hostPort : List HostOp
  hostHeld : List HostHeld
  hostSerial : Nat
  answers : List HostAnswer
  held : List Held
  lanterns : List Lantern
  turnstiles : List (Nat × List (Option Flow))
  landings : List Landing
  glass : List (Nat × Glass)
  trunks : List (Nat × TrunkPort)
  permits : List (Nat × List (Nat × Nat))
  links : List (Nat × Link)
  peers : List Peer
  net0 : NetEngine
  net1 : NetEngine
  remaps : List Remap
  tables : Tables
  health : Health
  interfaces : List (Nat × Interface)
  measurements : List (List (List Nat))
  handover : Handover
  leaseAsk : Option LeaseAsk
  rack : Rack
  samples : List (Nat × Int)
  history : List (Nat × Int)
  deriving DecidableEq, Repr

/-! ### Reset -/

/-- R136: a Trellis whose 16 positions hold `z` and count as arrived. -/
def Trellis.empty {α : Type} (z : α) : Trellis α := ⟨List.replicate 16 ⟨z, none⟩, 0⟩

/-- A vector register of zeros with tag 0 (R54). -/
def VReg.zero : VReg := ⟨List.replicate 64 0, 0⟩

/-- No group open (R129). -/
def Group.none : Group := ⟨false, [], 0, 0, [], []⟩

/-- A tile row of zeros. -/
def TileRow.zero : TileRow := ⟨List.replicate 128 0, List.replicate 32 0⟩

/-- An unconfigured tile (R221). -/
def Tile.zero : Tile := ⟨List.replicate 32 TileRow.zero, 0, false, none, none, none⟩

/-- Accumulator words that are all zero. -/
def zeroWords : List (List W32) := List.replicate 32 (List.replicate 32 0)

/-- An accumulator at task entry (R54, R223). -/
def Acc.zero : Acc := ⟨.float, 0, false, false, List.replicate 32 0, zeroWords, none, none, false, none⟩

/-- R253: the reset staging state. -/
def Staging.reset : Staging :=
  ⟨List.replicate 6 1, List.replicate 6 0, List.replicate 6 0, 0, 0, 0, false, 0, List.replicate 4 .none⟩

/-- R261: an unused handle. -/
def Handle.free : Handle := ⟨.free, 0, 0, 0, [], false, false, 0⟩

/-- R113: a watermark at reset. -/
def Watermark.reset : Watermark := ⟨0, 0, 0, false, []⟩

/-- R36: what a descriptor with PLIST = 0 behaves by. -/
def PreloadList.empty : PreloadList := ⟨0, 0, 0, 0, 0, 0, 0, []⟩

/-- R138: STW after reset: PRIV 1, OPPT 6. -/
def stwReset : W64 := 0xC4#64

/-- R340: TVEC after reset. -/
def tvecReset : W64 := 0x3F000#64

/-- A context bank that holds no task: every register map at its Reset column, every register without one at its value
of R54 (assumption 6). -/
def Context.reset : Context where
  task := none
  sreg := List.replicate 16 0
  preds := [true, false, false, false, false, false, false, false]
  va := List.replicate 16 VReg.zero
  vb := List.replicate 16 VReg.zero
  ma := (BitVec.allOnes 64) :: List.replicate 7 0
  mb := (BitVec.allOnes 64) :: List.replicate 7 0
  sq := Trellis.empty 0
  qa := Trellis.empty VReg.zero
  qb := Trellis.empty VReg.zero
  group := Group.none
  results := []
  nextRid := 0
  loops := []
  rep := none
  xfer := none
  pc := 0
  stw := stwReset
  epc := 0
  estw := 0
  cause := 0
  tval := 0
  tvec := tvecReset
  macpc := 0
  micpc := 0
  ssp := 0
  sslim := 0
  sstop := 0
  qpct := 0x400#64
  qbase := 0x80#64
  marks := List.replicate 8 Watermark.reset
  histA := List.replicate 64 0
  histB := List.replicate 64 0
  histReadyA := 0
  histReadyB := 0
  tiles := List.replicate 8 Tile.zero
  accs := List.replicate 4 Acc.zero
  rwm := List.replicate 4 (BitVec.allOnes 32)
  clm := List.replicate 4 (BitVec.allOnes 32)
  staging0 := Staging.reset
  staging1 := Staging.reset
  copied := List.replicate 8 0
  withdrawn := []
  handles := List.replicate 8 Handle.free
  psub := List.replicate 8 none
  bundles := 0
  estall := 0
  mskip := 0
  dstall := 0
  aside := []
  firstCause := 0
  split := []
  deferred := []
  completions := []
  holds := []
  wait := .none
  soft := none
  ending := none
  drain := false
  flagCycle := 0
  flagsThen := 0
  runFrom := none
  pushBusy := 0
  ranges := []
  tables := ⟨[], [], 0⟩
  order := 0

/-- No bundle is being executed. -/
def SlotCtx.idle : SlotCtx := ⟨false, 0, 0, 0, false, [], 0, 0, .committed, 0, 0⟩

/-- R21, R31, R89, R138, R168: a core after cold reset. -/
def Core.reset : Core where
  slot := SlotCtx.idle
  act := Context.reset
  shd := Context.reset
  shadow := .free
  preloads := []
  swapReq := none
  leaving := .no
  imem := []
  cstore0 := []
  cstore1 := []
  half := false
  cycle := 0
  time := 0
  cestall := 0
  weights := []
  op := 6
  opMove := none
  opHeld := none
  rail := 0
  railEnds := 0
  arrayFree := 0
  merr := List.replicate 3 (0, false)
  mgrp := List.replicate 3 0
  windowDet := List.replicate 3 0
  countCycle := 0
  countThen := List.replicate 3 (0, 0)
  engine0 := ⟨[], none⟩
  engine1 := ⟨[], none⟩
  leaves := []
  throttled := false
  retirePending := false
  linkFree := 0

/-- A kiosk after reset (R38, R42, R43). DESIGN CHOICE (assumption 49): its round robin starts as if core 3 had been served last. -/
def Kiosk.reset : Kiosk := ⟨[[], [], [], []], 0, 3, [0, 0, 0, 0], [256, 256, 256, 256], [], [], [], []⟩

/-- R310: the hand-over controller after reset. -/
def Handover.reset : Handover := ⟨0, 0, 0, 0, none, false, false, 0, 0, [], [0, 0, 0], false, [], false, false⟩

/-- R305: before the first valid message the budget in force is 3,000 W. -/
def Rack.reset : Rack := ⟨3000, 0, 0, none, false⟩

/-- R52, R276, R291, R299: the happenings that recur every 4,096 ticks, from a time `n` that begins such a tick; a window of the
turnstiles starts behind the bursts of its tick. -/
def periodicAt (n : Nat) : List (Nat × Happening) :=
  [(n, .balanceSample), (n, .sensorSample), (n + (Config.unitsPerTick - 1), .turnstileWindow)]

/-- R52, R276, R299: what recurs is first due at tick 4,096. -/
def periodicAgenda : List (Nat × Happening) := periodicAt (4096 * Config.unitsPerTick)

/-- The machine right after a cold reset (R315): no context lives, every register holds its reset value, memory lists
nothing, the interfaces are unlocked. -/
def State.reset : State where
  time := 0
  free := 0
  nextId := 0
  seq := 0
  reports := []
  agenda := periodicAgenda
  happening := .balanceSample
  lcn := 0
  core := Core.reset
  others := []
  regs := []
  mem := []
  unitKey := []
  keys := []
  kiosks := []
  accesses := []
  bursts := []
  barriers := []
  ingress := []
  hostPort := []
  hostHeld := []
  hostSerial := 0
  answers := []
  held := []
  lanterns := []
  turnstiles := []
  landings := []
  glass := []
  trunks := []
  permits := []
  links := []
  peers := []
  net0 := ⟨[], 0, []⟩
  net1 := ⟨[], 0, []⟩
  remaps := []
  tables := ⟨0, List.range 32, none, [], [], 0, 0, none, 0, []⟩
  health := ⟨[], [], []⟩
  interfaces := []
  measurements := [[], [], [], [], [], []]
  handover := Handover.reset
  leaseAsk := none
  rack := Rack.reset
  samples := []
  history := []

end Sys2Proof.Machine
end

