-- ==== Sys2Proof/Machine/Ops.lean ====
section
/-! DEFINITION. The named operations over the state that every meaning shares: bit fields, identifiers of places, access to
cores and contexts, the agenda, registers and Trellises, stalling, taking a trap and returning from one. -/

namespace Sys2Proof.Machine

/-- What `exec` and `step` answer. -/
abbrev Out := Host.Outcome State Fault Refusal

/-! ### Bits and lists -/

/-- R4: bits [lo + len − 1 : lo] of a number. -/
def fld (v lo len : Nat) : Nat := v / 2 ^ lo % 2 ^ len

/-- R4: bit `i` of a number. -/
def bit (v i : Nat) : Bool := v / 2 ^ i % 2 == 1

/-- `v` with bits [lo + len − 1 : lo] replaced by the low bits of `x`. -/
def putFld (v lo len x : Nat) : Nat :=
  v % 2 ^ lo + (x % 2 ^ len) * 2 ^ lo + v / 2 ^ (lo + len) * 2 ^ (lo + len)

/-- R10: SignExt. -/
def signExt (x n : Nat) : Int :=
  if bit x (n - 1) then (x % 2 ^ n : Int) - 2 ^ n else (x % 2 ^ n : Int)

/-- R10: the bits [n − 1 : 0] of an integer. -/
def toBits (n : Nat) (x : Int) : Nat := (x % (2 ^ n : Int)).toNat

/-- R10: x clamped to the signed range of n bits. -/
def satS (n : Nat) (x : Int) : Int := max (-(2 ^ (n - 1) : Int)) (min x (2 ^ (n - 1) - 1 : Int))

/-- R10: x clamped to the unsigned range of n bits. -/
def satU (n : Nat) (x : Int) : Int := max 0 (min x (2 ^ n - 1 : Int))

/-- ⌈a / b⌉. -/
def ceilDiv (a b : Nat) : Nat := (a + b - 1) / b

/-- R5: the little-endian value of bytes. -/
def fromBytes : List Byte → Nat
  | [] => 0
  | b :: bs => b.toNat + 256 * fromBytes bs

/-- R5: the n little-endian bytes of a value. -/
def toBytes : Nat → Nat → List Byte
  | 0, _ => []
  | n + 1, v => BitVec.ofNat 8 v :: toBytes n (v / 256)

/-- The value of the `n` bytes from offset `o` of a run of bytes (R5). -/
def leAt (bs : List Byte) (o n : Nat) : Nat := fromBytes ((bs.drop o).take n)

/-- A list with `n` entries from `o` on replaced by those of `xs`. -/
def splice {α : Type} (l : List α) (o : Nat) (xs : List α) : List α := l.take o ++ xs ++ l.drop (o + xs.length)

/-- Look up a key in an association list. -/
def assocGet {α : Type} (k : Nat) (d : α) : List (Nat × α) → α
  | [] => d
  | (k', v) :: r => if k' == k then v else assocGet k d r

/-- Put a key into an association list kept in ascending keys. -/
def assocPut {α : Type} (k : Nat) (v : α) : List (Nat × α) → List (Nat × α)
  | [] => [(k, v)]
  | (k', v') :: r => if k < k' then (k, v) :: (k', v') :: r else if k == k' then (k, v) :: r else (k', v') :: assocPut k v r

/-- Remove a key from an association list. -/
def assocDel {α : Type} (k : Nat) (l : List (Nat × α)) : List (Nat × α) := l.filter (fun e => e.1 != k)

/-- The first entry that satisfies a test, with its index. -/
def findIdx {α : Type} (p : α → Bool) : List α → Nat → Option Nat
  | [], _ => none
  | x :: r, i => if p x then some i else findIdx p r (i + 1)

/-! ### Identifiers of places (R17 to R19) -/

/-- R19: die of a linear core number. -/
def dieOf (n : Nat) : Nat := n / 144
/-- R19, R38: linear quad number of a linear core number. -/
def quadOf (n : Nat) : Nat := n / 4
/-- R18, R19: the CID of a linear core number. -/
def cidOf (n : Nat) : Nat := n / 144 * 256 + n % 144 / 24 * 32 + n % 144 / 4 % 6 * 4 + n % 4
/-- R18: whether a CID names a core. -/
def populated (cid : Nat) : Bool := cid < 2048 && cid / 32 % 8 < 6 && cid / 4 % 8 < 6
/-- R19: the linear core number of a populated CID. -/
def lcnOf (cid : Nat) : Nat := cid / 256 * 144 + (cid / 32 % 8 * 6 + cid / 4 % 8) * 4 + cid % 4
/-- R34, R37: the linear quad number of AFFV[10:2]. -/
def quadOfCid (cid : Nat) : Nat := cid / 256 * 36 + cid / 32 % 8 * 6 + cid / 4 % 8
/-- R17: die of a linear quad number. -/
def dieOfQuad (q : Nat) : Nat := q / 36

/-! ### Cores, contexts and kiosks -/

/-- The core with linear number `n`. -/
def coreAt (s : State) (n : Nat) : Core := if n == s.lcn then s.core else assocGet n Core.reset s.others

/-- Replace the core with linear number `n`. -/
def setCore (s : State) (n : Nat) (c : Core) : State :=
  if n == s.lcn then { s with core := c } else { s with others := assocPut n c s.others }

/-- Update the core with linear number `n`. -/
def modCoreAt (n : Nat) (f : Core → Core) (s : State) : State := setCore s n (f (coreAt s n))

/-- Make core `n` the one that `exec` acts on. -/
def makeCurrent (n : Nat) (s : State) : State :=
  if n == s.lcn then s
  else { s with core := coreAt s n, lcn := n, others := assocPut s.lcn s.core (assocDel n s.others) }

/-- Every core that has been used, by linear number, ascending. -/
def allCores (s : State) : List (Nat × Core) := assocPut s.lcn s.core s.others

/-- Update the current core. -/
def modCore (f : Core → Core) (s : State) : State := { s with core := f s.core }

/-- Update the active context of the current core. -/
def modAct (f : Context → Context) (s : State) : State := { s with core := { s.core with act := f s.core.act } }

/-- Update the slot context of the current core. -/
def modSlot (f : SlotCtx → SlotCtx) (s : State) : State := { s with core := { s.core with slot := f s.core.slot } }

/-- The kiosk of quad `q`. -/
def kioskAt (s : State) (q : Nat) : Kiosk := assocGet q Kiosk.reset s.kiosks

/-- Replace the kiosk of quad `q`. -/
def setKiosk (s : State) (q : Nat) (k : Kiosk) : State := { s with kiosks := assocPut q k s.kiosks }

/-- Update the kiosk of quad `q`. -/
def modKiosk (q : Nat) (f : Kiosk → Kiosk) (s : State) : State := setKiosk s q (f (kioskAt s q))

/-- Whether a context is the one of task `t`. -/
def Context.isTask (c : Context) (t : Nat) : Bool :=
  match c.task with
  | some k => k.taskid == t
  | none => false

/-- The task identifier of a context, 0xFFFF_FFFF when it holds none (R367). -/
def Context.tid (c : Context) : Nat :=
  match c.task with
  | some k => k.taskid
  | none => 0xFFFFFFFF

/-- The ASID of a context. -/
def Context.asid (c : Context) : Nat :=
  match c.task with
  | some k => k.desc.asid
  | none => 0

/-- The core whose active bank holds task `t`. -/
def activeOn (s : State) (t : Nat) : Option Nat :=
  ((allCores s).find? (fun e => e.2.act.isTask t)).map Prod.fst

/-- The core whose shadow bank holds task `t`. -/
def shadowOn (s : State) (t : Nat) : Option Nat :=
  ((allCores s).find? (fun e => e.2.shadow != .free && e.2.shd.isTask t)).map Prod.fst

/-- Update the saved context of a kiosk entry if it is that of task `t`. -/
def Entry.modSaved (t : Nat) (f : Context → Context) (e : Entry) : Entry :=
  if e.task.taskid == t then { e with saved := e.saved.map (fun p => (f p.1, p.2)) } else e

/-- Update a saved context wherever a kiosk holds it. -/
def modSavedAll (t : Nat) (f : Context → Context) (s : State) : State :=
  { s with kiosks := s.kiosks.map (fun p => (p.1, { p.2 with
      bands := p.2.bands.map (fun b => b.map (Entry.modSaved t f)),
      overrun := p.2.overrun.map (Entry.modSaved t f)
      arriving := p.2.arriving.map (Entry.modSaved t f) })) }

/-- The entries of a kiosk: those of its bands, overrun ones, and those on their way into a band. -/
def Kiosk.entries (k : Kiosk) : List Entry := k.bands.flatten ++ k.overrun ++ k.arriving

/-- Update the context of task `t` wherever it is: in an active bank, a shadow bank, or saved (R58). -/
def modTask (t : Nat) (f : Context → Context) (s : State) : State :=
  match activeOn s t with
  | some n => modCoreAt n (fun c => { c with act := f c.act }) s
  | none =>
    match shadowOn s t with
    | some n => modCoreAt n (fun c => { c with shd := f c.shd }) s
    | none => modSavedAll t f s

/-- The saved context of task `t` in a kiosk. -/
def savedCtx (s : State) (t : Nat) : Option Context :=
  ((s.kiosks.flatMap (fun p => p.2.entries)).find? (fun e => e.task.taskid == t && e.saved.isSome)).bind
    (fun e => e.saved.map Prod.fst)

/-- The context of task `t` wherever it is. -/
def ctxOf (s : State) (t : Nat) : Option Context :=
  match activeOn s t with
  | some n => some (coreAt s n).act
  | none =>
    match shadowOn s t with
    | some n => some (coreAt s n).shd
    | none => savedCtx s t

/-! ### Time, the agenda and free values -/

/-- R2: the tick that is current. -/
def tickNow (s : State) : Nat := s.time / Config.unitsPerTick

/-- R133: the package identifier is bits [41:32] of MODID (R29), which the model keeps with the aperture registers. -/
def pkgId (s : State) : Nat := fld (assocGet 0 0#64 s.regs).toNat 32 10

/-- R21, R26: whether a piece lies in the scratchpad slice of core `n` of this package. -/
def Piece.inSlice (s : State) (n : Nat) (p : Piece) : Bool :=
  p.pa / 2 ^ 46 % 1024 == pkgId s && p.pa % 2 ^ 46 / 0x400000 == 0x4000 + cidOf n

/-- R114, R120, R121, R291, R316: the order of happenings that meet at one time. Those of level 0 come before the cycles that begin then,
the others after, in the order of the requesters at a bank: accesses of the core itself, copies and the preload in its own slice,
other deliveries, the spill; then what follows everything of its tick. -/
def level (s : State) : Happening → Nat
  | .accessPerform id =>
    if s.accesses.any (fun a => a.id == id && !a.pieces.isEmpty && a.pieces.all (Piece.inSlice s a.lcn)) then 1 else 4
  | .burstPerform id =>
    if s.bursts.any (fun b => b.id == id && (b.stage != 2 || b.dst.all (Piece.inSlice s b.lcn))) then 3 else 4
  | .preload _ => 3
  | .circuitBeatArrival _ | .segmentCommit _ _ | .markArrival _ _ | .hostEntryPerform _ | .ingressAgeExpiry _ | .hostWrite _ _ _ _ | .portRetry
  | .hostRead _ _ _ | .networkSegmentComplete _ _ _ | .remoteRequest _ _ _ _ | .joinUpdate _ _ _ | .failedJoinUpdate _ _ _ => 4
  | .spill _ => 5
  | .lanternLaunch _ _ | .budgetExhausted _ _ => 6
  | .turnstileWindow | .heartbeatIntervalEnd _ | .kioskSelect _ => 7
  | .balanceDecide => 8
  | _ => 0

/-- Put a happening into the agenda behind those due earlier, and behind those of its time whose level is not higher. -/
def insertDue (s : State) (t : Nat) (i : Happening) : List (Nat × Happening) → List (Nat × Happening)
  | [] => [(t, i)]
  | (t', i') :: r =>
    if t < t' || (t == t' && decide (level s i < level s i')) then (t, i) :: (t', i') :: r else (t', i') :: insertDue s t i r

/-- Schedule a happening at a time in units. -/
def atTime (t : Nat) (i : Happening) (s : State) : State := { s with agenda := insertDue s (max t s.time) i s.agenda }

/-- Schedule a happening `d` ticks from now. -/
def inTicks (d : Nat) (i : Happening) (s : State) : State := atTime (s.time + d * Config.unitsPerTick) i s

/-- The last unit of the present tick. -/
def tickEnd (s : State) : Nat := tickNow s * Config.unitsPerTick + (Config.unitsPerTick - 1)

/-- R47, R55: the kiosk of quad `q` selects at the end of the present tick, for every shadow bank that is free then. A swap that this leads
to is requested in the cycles that are under way. -/
def selectSoon (q : Nat) (s : State) : State := atTime (tickEnd s) (.kioskSelect q) s

/-- Schedule a happening now. -/
def soon (i : Happening) (s : State) : State := atTime s.time i s

/-- Remove every scheduled happening that satisfies a test. -/
def unschedule (p : Happening → Bool) (s : State) : State := { s with agenda := s.agenda.filter (fun e => !p e.2) }

/-- R409: schedule a happening within `bound` ticks; how long it takes is a free value within the bound. -/
def within (bound : Nat) (i : Happening) (s : State) : State :=
  inTicks (min bound (Config.delay s.free)) i { s with free := s.free + 1 }

/-- R409: schedule a happening after a time to which the manual sets no bound: a free value. -/
def sometime (i : Happening) (s : State) : State := inTicks (Config.delay s.free) i { s with free := s.free + 1 }

/-- What a happening of core `n` does, where the module has that core (R19). -/
def onCore (n : Nat) (s : State) (k : State → State) : Out := if n < Config.numCores then .next (k s) else .fault .noSuchUnit

/-- What a happening of the kiosk of quad `q` does, where the module has that quad (R17). -/
def onQuad (q : Nat) (s : State) (k : State → State) : Out := if q < Config.numQuads then .next (k s) else .fault .noSuchUnit

/-- What a happening of a compute die does, where the module has that die (R16). -/
def onDie (d : Nat) (s : State) (k : State → State) : Out := if d < Config.numDies then .next (k s) else .fault .noSuchUnit

/-- R31: units of one cycle of a core. -/
def Core.unit (c : Core) : Nat := Config.cycleUnits c.op

/-- Let `n` cycles pass on a core. -/
def Core.pass (n : Nat) (c : Core) : Core := { c with time := c.time + n * c.unit, cycle := c.cycle + n }

/-- Bring the clock of a core that was idle up to a time: whole cycles that began before it (R168). -/
def Core.catchUp (t : Nat) (c : Core) : Core := if c.time < t then c.pass (ceilDiv (t - c.time) c.unit) else c

/-- A fresh number for an access, a burst or a lantern. -/
def freshId (s : State) : Nat × State := (s.nextId, { s with nextId := s.nextId + 1 })

/-! ### The status word (R138) -/

/-- STW.PRIV. -/
def Context.priv (c : Context) : Bool := bit c.stw.toNat 2
/-- STW.FID. -/
def Context.fid (c : Context) : Nat := fld c.stw.toNat 3 2
/-- STW.SLOTRES. -/
def Context.slotres (c : Context) : Nat := fld c.stw.toNat 0 2
/-- STW.REPC. -/
def Context.repc (c : Context) : Nat := fld c.stw.toNat 16 16
/-- STW.FEN. -/
def Context.fen (c : Context) : Nat := fld c.stw.toNat 40 5
/-- Replace a field of STW. -/
def Context.putStw (lo len x : Nat) (c : Context) : Context := { c with stw := BitVec.ofNat 64 (putFld c.stw.toNat lo len x) }
/-- STW as it is read: GOPEN is 1 while a group is open. -/
def Context.readStw (c : Context) : W64 := BitVec.ofNat 64 (putFld c.stw.toNat 8 1 (b2n c.group.isOpen))
/-- MICPC.MICRO. -/
def Context.micro (c : Context) : Bool := bit c.micpc.toNat 15
/-- The address of the bundle being executed, in its space (R170). -/
def Context.here (c : Context) : Nat := if c.micro then fld c.micpc.toNat 0 15 else c.pc.toNat
/-- R170: a target formed in the present space. -/
def Context.wrapAddr (c : Context) (v : Nat) : Nat := if c.micro then v % 0x8000 / 16 * 16 else v % 0x40000 / 16 * 16
/-- R173, R189: go to an address in a space. -/
def Context.goto (t : Target) (c : Context) : Context :=
  if t.micro then { c with micpc := BitVec.ofNat 64 (t.addr % 0x8000 + 0x8000) }
  else { c with pc := BitVec.ofNat 18 t.addr, micpc := BitVec.ofNat 64 (putFld c.micpc.toNat 15 1 0) }
/-- The address of the bundle that follows the one being executed. DESIGN CHOICE (assumption 66): after the last bundle of a space comes the one
at offset 0, as the modulo of R170 has it for the targets of transfers. -/
def Context.following (c : Context) : Target := ⟨c.wrapAddr (c.here + 16), c.micro, none⟩

/-! ### Trellises and results (R131, R136) -/

/-- R136: the slot index of age `n`. -/
def ageIdx (head n : Nat) : Nat := (head + 31 - n % 16) % 16

/-- R136: the slot of age `n`. -/
def Trellis.age {α : Type} (t : Trellis α) (z : α) (n : Nat) : TSlot α := t.slots.getD (ageIdx t.head n) ⟨z, none⟩

/-- R136: claim the slot at HEAD for a result. -/
def Trellis.claim {α : Type} (t : Trellis α) (v : α) (aw : Option Nat) : Trellis α :=
  ⟨t.slots.set t.head ⟨v, aw⟩, (t.head + 1) % 16⟩

/-- R136: fill the slot that awaits result `r`. -/
def Trellis.fill {α : Type} (t : Trellis α) (r : Nat) (v : α) : Trellis α :=
  { t with slots := t.slots.map (fun p => if p.await == some r then ⟨v, none⟩ else p) }

/-- R136: the value that stands in the slot that awaits result `r` has arrived. -/
def Trellis.arrive {α : Type} (t : Trellis α) (r : Nat) : Trellis α :=
  { t with slots := t.slots.map (fun p => if p.await == some r then { p with await := none } else p) }

/-- The named registers that a result keeps unreadable are read ready when no result for them is outstanding at a cycle. -/
def Context.resReady (c : Context) (r : Res) : Bool := c.results.all (fun x => x.dest != .named r)

/-- R131: drop from earlier results what a later write of a named register replaces. -/
def dropOlder (r : Res) (lanes : BitVec 64) (tag : Bool) (l : List Result) : List Result :=
  l.filterMap (fun x =>
    if x.dest == .named r then
      let x' := { x with lanes := x.lanes &&& ~~~lanes, setTag := x.setTag && !tag }
      if x'.lanes == 0 && !x'.setTag then none else some x'
    else some x)

/-- R131, R152: record a result that becomes readable at a cycle, or (`none`) when its access answers. -/
def addResult (d : ResultDest) (due : Option Nat) (lanes : BitVec 64) (tag : Bool) (c : Context) : Context :=
  let old := match d with
    | .named r => dropOlder r lanes tag c.results
    | .trellis _ => c.results
  { c with results := old ++ [⟨c.nextRid, d, due, lanes, tag⟩], nextRid := c.nextRid + 1 }

/-- R131: the cycle at which a result of latency `L` of the current slot is readable. -/
def dueIn (L : Nat) (s : State) : Option Nat := some (s.core.cycle + L)

/-- The named register that a scalar specifier writes. -/
def sDest (x : Nat) : Option ResultDest :=
  if x < 16 then some (.named (.s x)) else if x == 16 then some (.trellis .s) else none

/-- R150: WriteS, for a value known at commit that readers may take from cycle `due`. -/
def writeSDue (x : Nat) (v : W64) (due : Option Nat) (s : State) : State :=
  if x < 16 then
    modAct (fun c => addResult (.named (.s x)) due (BitVec.allOnes 64) false { c with sreg := c.sreg.set x v }) s
  else if x == 16 then
    modAct (fun c =>
      let c' := addResult (.trellis .s) due 0 false c
      { c' with group := { c'.group with pending := c'.group.pending ++ [⟨.s, v, VReg.zero, some c.nextRid⟩] } }) s
  else s

/-- R150, R152: WriteS with latency L. -/
def writeS (x : Nat) (v : W64) (L : Nat) (s : State) : State := writeSDue x v (dueIn L s) s

/-- R150: WriteP. -/
def writeP (x : Nat) (b : Bool) (L : Nat) (s : State) : State :=
  if x == 0 then s
  else modAct (fun c => addResult (.named (.p x)) (dueIn L s) (BitVec.allOnes 64) false { c with preds := c.preds.set x b }) s

/-- R135: a predicate. -/
def readP (x : Nat) (s : State) : Bool := x == 0 || s.core.act.preds.getD x false

/-- R134: the other cluster. -/
def otherCluster : Cluster → Cluster
  | .va => .vb
  | .vb => .va

/-- R135: mask `x` of a cluster; ma0 and mb0 are all ones. -/
def Context.mask (c : Context) (v : Cluster) (x : Nat) : BitVec 64 :=
  if x == 0 then BitVec.allOnes 64
  else match v with
    | .va => c.ma.getD x 0
    | .vb => c.mb.getD x 0

/-- The mask a mask operand names (R135). -/
def readMask (v : Cluster) (x : Nat) (s : State) : BitVec 64 :=
  if x < 8 then s.core.act.mask v x else s.core.act.mask (otherCluster v) (x % 8)

/-- Write an own mask 1 to 7. -/
def writeMask (v : Cluster) (x : Nat) (m : BitVec 64) (L : Nat) (s : State) : State :=
  if x == 0 then s
  else modAct (fun c =>
    let c' := addResult (.named (.m v x)) (dueIn L s) (BitVec.allOnes 64) false c
    match v with
    | .va => { c' with ma := c'.ma.set x m }
    | .vb => { c' with mb := c'.mb.set x m }) s

/-- R133, R150: ReadS. -/
def readS (x : Nat) (s : State) : W64 :=
  let c := s.core.act
  if x < 16 then c.sreg.getD x 0
  else if x < 32 then (c.sq.age 0 (x - 16)).val
  else match x with
    | 33 => BitVec.ofNat 64 (match c.task with | some t => cidOf t.logical | none => cidOf s.lcn)
    | 34 => BitVec.ofNat 64 (match c.task with | some t => t.logical | none => s.lcn)
    | 35 => BitVec.ofNat 64 (match c.task with | some t => t.taskid | none => 0)
    | 36 => 64
    | 37 => BitVec.ofNat 64 (s.core.slot.tick % 2 ^ 32)
    | 38 => BitVec.ofNat 64 (pkgId s)
    | 39 => BitVec.ofNat 64 c.asid
    | _ => 0

/-- The named vector register `x` of a cluster. -/
def Context.vreg (c : Context) (v : Cluster) (x : Nat) : VReg :=
  match v with
  | .va => c.va.getD x VReg.zero
  | .vb => c.vb.getD x VReg.zero

/-- Replace a named vector register. -/
def Context.setV (v : Cluster) (x : Nat) (r : VReg) (c : Context) : Context :=
  match v with
  | .va => { c with va := c.va.set x r }
  | .vb => { c with vb := c.vb.set x r }

/-- The Trellis of a cluster. -/
def Context.vq (c : Context) (v : Cluster) : Trellis VReg :=
  match v with
  | .va => c.qa
  | .vb => c.qb

/-- R134: the cluster and the number within it of a vector specifier read in cluster `v`. -/
def specCluster (v : Cluster) (x : Nat) : Cluster := if x < 32 then v else (otherCluster v)

/-- R73: whether a tag is a block tag. -/
def isBlock (t : Nat) : Bool := t == 6 || t == 7 || t == 8

/-- R73: a register as it is read: lanes 40 to 63 of a tile-row image read as zero. DESIGN CHOICE (assumption 29): data bytes past the format's own
and side bytes that it does not use, within the 160 bytes, are returned as they stand. -/
def VReg.shown (r : VReg) : VReg := if isBlock r.tag then { r with lanes := r.lanes.take 40 ++ List.replicate 24 0 } else r

/-- R134, R194: ReadV. Units other than VA and VB read with `v` = VA. -/
def readV (v : Cluster) (x : Nat) (s : State) : VReg :=
  let c := s.core.act
  let w := specCluster v x
  (if x % 32 < 16 then c.vreg w (x % 16) else ((c.vq w).age VReg.zero (x % 16)).val).shown

/-- The lanes of a mask as Booleans. -/
def laneOn (m : BitVec 64) (l : Nat) : Bool := bit m.toNat l

/-- R195: new lanes under a mask over old ones. -/
def mergeLanes (m : BitVec 64) (new old : List W32) : List W32 :=
  (List.range 64).map (fun l => if laneOn m l then new.getD l 0 else old.getD l 0)

/-- R132, R195: write a named vector register of cluster `v` under a mask; an empty mask sets the tag only when no other
slot of the bundle writes a lane. -/
def writeVNamed (v : Cluster) (x : Nat) (m : BitVec 64) (r : VReg) (due : Option Nat) (s : State) : State :=
  let res : Res := .v v x
  let setTag := m != 0 || !s.core.slot.wrote.contains res
  let s := modAct (fun c =>
    let old := c.vreg v x
    let c' := addResult (.named res) due m setTag c
    c'.setV v x ⟨mergeLanes m r.lanes old.lanes, if setTag then r.tag else old.tag⟩) s
  if m != 0 then modSlot (fun k => { k with wrote := res :: k.wrote }) s else s

/-- R136: give a vector Trellis a result of the open group. -/
def pushV (v : Cluster) (r : VReg) (due : Option Nat) (s : State) : State :=
  modAct (fun c =>
    let c' := addResult (.trellis (.v v)) due 0 false c
    { c' with group := { c'.group with pending := c'.group.pending ++ [⟨.v v, 0, r, some c.nextRid⟩] } }) s

/-- R195: write the vector destination `x` of an instruction in cluster `v` (for M and the copy engines `v` = VA), readable
at `due`. -/
def writeVDue (v : Cluster) (x : Nat) (m : BitVec 64) (r : VReg) (due : Option Nat) (s : State) : State :=
  let w := specCluster v x
  if x % 32 < 16 then writeVNamed w (x % 16) m r due s
  else pushV w ⟨mergeLanes m r.lanes (List.replicate 64 0), r.tag⟩ due s

/-- R195, R199: write a vector destination with latency L. -/
def writeV (v : Cluster) (x : Nat) (m : BitVec 64) (r : VReg) (L : Nat) (s : State) : State :=
  writeVDue v x m r (dueIn L s) s

/-- R131: the cycle that a read of the other cluster's register, named or Trellis, adds. -/
def otherCycle (xs : List Nat) : Nat := if xs.any (fun x => 32 ≤ x) then 1 else 0

/-! ### Results that arrive -/

/-- Whether a pending position awaits result `r`. -/
def PendingPos.hit (r : Nat) (p : PendingPos) : Bool := p.await == some r

/-- R131, R136: result `r` of a context arrives: a named register becomes readable, a Trellis slot or a pending position
that awaits it counts as arrived. A slot reclaimed since awaits it no longer, so the value is discarded. -/
def Context.arrive (r : Nat) (c : Context) : Context :=
  let pend (g : Group) : Group :=
    { g with pending := g.pending.map (fun p => if p.hit r then { p with await := none } else p) }
  { c with
    results := c.results.filter (fun x => x.rid != r)
    sq := c.sq.arrive r, qa := c.qa.arrive r, qb := c.qb.arrive r
    group := pend c.group
    aside := c.aside.map (fun a => { a with
      sq := a.sq.arrive r, qa := a.qa.arrive r, qb := a.qb.arrive r, group := pend a.group }) }

/-- R136: put the value of result `r` where it waits for it, without yet letting it be read. -/
def Context.deliver (r : Nat) (sv : W64) (vv : VReg) (c : Context) : Context :=
  let pend (g : Group) : Group :=
    { g with pending := g.pending.map (fun p => if p.hit r then { p with sval := sv, vval := vv } else p) }
  let q (t : Trellis W64) : Trellis W64 :=
    { t with slots := t.slots.map (fun p => if p.await == some r then { p with val := sv } else p) }
  let qv (t : Trellis VReg) : Trellis VReg :=
    { t with slots := t.slots.map (fun p => if p.await == some r then { p with val := vv } else p) }
  let c : Context := { c with
    sq := q c.sq, qa := qv c.qa, qb := qv c.qb, group := pend c.group
    aside := c.aside.map (fun a => { a with sq := q a.sq, qa := qv a.qa, qb := qv a.qb, group := pend a.group }) }
  match c.results.find? (fun x => x.rid == r) with
  | none => c
  | some x =>
    match x.dest with
    | .named (.s n) => { c with sreg := c.sreg.set n sv }
    | .named (.v w n) =>
      let old := c.vreg w n
      c.setV w n ⟨mergeLanes x.lanes vv.lanes old.lanes, if x.setTag then vv.tag else old.tag⟩
    | _ => c

/-- A result outside the home window has answered: it arrives at cycle `cy`. -/
def Context.answered (r cy : Nat) (c : Context) : Context :=
  { c with results := c.results.map (fun x => if x.rid == r then { x with due := some cy } else x) }

/-! ### Groups (R129, R136) -/

/-- R136: a position of the group takes its place in its Trellis. -/
def takePos (c : Context) (p : PendingPos) : Context :=
  match p.dest with
  | .s => { c with sq := c.sq.claim p.sval p.await }
  | .v .va => { c with qa := c.qa.claim p.vval p.await }
  | .v .vb => { c with qb := c.qb.claim p.vval p.await }

/-- R129, R136: the open group ends: its results take their positions in program order. -/
def endGroup (c : Context) : Context := { c.group.pending.foldl takePos c with group := Group.none }

/-- R172, R176: the iteration index of loop level `l`, 0 being the innermost. -/
def Context.levelIdx (c : Context) (l : Nat) : W32 := ((c.loops[l]?).map Level.idx).getD 0

/-- R129, R130, R159: before a slot that may be the first of a group: the bundle and the loop indices at the start; `bundles` counts the bundles
at whose end the group was open. -/
def startGroup (c : Context) : Context :=
  if c.group.isOpen then c
  else { c with group := { c.group with bundles := 0, firstPc := c.here, idx := c.loops.map Level.idx } }

/-! ### Stalling, committing, trapping -/

/-- R131: the slot does not commit in this cycle; it is tried again in the next. -/
def stall (s : State) : State := modSlot (fun k => { k with ended := .stalled }) s

/-- R114, R179, R181, R251, R266: stall and wait for something. -/
def stallFor (w : Wait) (s : State) : State := stall (modAct (fun c => { c with wait := w }) s)

/-- The slot waits for nothing any more. -/
def waitOver (s : State) : State := modAct (fun c => { c with wait := .none }) s

/-- R340: the disposition of a cause (R343, R344): H is true. -/
def toHandler (code : Nat) : Bool :=
  !([0x17, 0x4E, 0x69, 0x6B, 0x8D, 0x8F, 0x90, 0xA0, 0xA1, 0xA2, 0xA3, 0xA5, 0xB1, 0xB4, 0xB5, 0xB6, 0xB7, 0xB8, 0xB9].contains code)

/-- R337: what a trap entry sets aside. -/
def Context.toAside (c : Context) : Aside :=
  ⟨c.sq, c.qa, c.qb, c.group, c.loops, BitVec.ofNat 16 c.repc, c.rep, c.xfer, c.wait, c.soft, c.split, c.epc.toNat * 4 + fld c.estw.toNat 0 2⟩

/-- R336, R340: CAUSE. -/
def causeWord (code k unit : Nat) (defer micro : Bool) : W64 :=
  BitVec.ofNat 64 (code + k * 256 + unit * 1024 + b2n defer * 8192 + b2n micro * 16384)

/-- R336 to R338, R189: what a trap entry changes in the context; `k` is the slot at which the stopped bundle resumes, `kc` and
`unit` what CAUSE names. What an earlier entry has set aside stays below it: a slot above an ERET can trap before the return. -/
def Context.enter (code : BitVec 8) (val : W64) (k kc unit : Nat) (defer : Bool) (c : Context) : Context :=
  let estw := putFld c.readStw.toNat 0 2 k
  { c with
    estw := BitVec.ofNat 64 estw
    epc := BitVec.ofNat 64 (c.here + b2n c.micro * 0x40000)
    cause := causeWord code.toNat kc unit defer c.micro
    tval := val
    aside := { c.toAside with stopped := (c.here + b2n c.micro * 0x40000) * 4 + k } :: c.aside
    firstCause := code
    sq := Trellis.empty 0, qa := Trellis.empty VReg.zero, qb := Trellis.empty VReg.zero
    group := Group.none, loops := [], rep := none, xfer := none, wait := .none, soft := none, split := []
    drain := true
    stw := BitVec.ofNat 64 (putFld (putFld (putFld (putFld c.stw.toNat 0 3 4) 16 16 0) 8 1 0) 40 5 0)
    micpc := BitVec.ofNat 64 (putFld c.micpc.toNat 15 1 0)
    pc := BitVec.ofNat 18 (fld c.tvec.toNat 0 18) }

/-- R367: the address that the record of a cause concerns, where its detail names one. -/
def causeAddr (code tval : Nat) : Nat :=
  if (0x60 ≤ code && code ≤ 0x6B) || (0x83 ≤ code && code ≤ 0x86) || code == 0xA1 || code == 0xA2 then tval
  else if code == 0x80 then tval / 256 else 0

/-- R335, R358: the context of the current core ends by a cause: it stops, and CONTEXT_END follows. -/
def endContext (code : BitVec 8) (val : W64) (k : Nat) (defer : Bool) (s : State) : State :=
  let a := if [0x69#8, 0xA0#8, 0xA3#8, 0xB1#8].contains code then s.core.slot.concern else causeAddr code.toNat val.toNat
  let s := modAct (fun c => { c with ending := some ⟨code, val, k, defer, false, a⟩ }) s
  let s := modSlot (fun x => { x with ended := .stopped, issued := false }) s
  soon (.contextEnd s.lcn code val) s

/-- R132, R195: a bundle is split: what its slots have written so far stays with the context. -/
def keepSplit (s : State) : State :=
  if s.core.slot.issued then modAct (fun c => { c with split := s.core.slot.wrote }) s else s

/-- R335 to R338, R343, R366: take a trap with the current core's bundle stopped at slot `k`: enter the handler, or end the
context. A fault above a TEXIT that has committed is discarded. -/
def takeTrap (code : BitVec 8) (val : W64) (k kc unit : Nat) (defer : Bool) (s : State) : State :=
  let c := s.core.act
  if s.core.swapReq == some .exited then
    modSlot (fun x => { x with ended := .stopped, issued := false }) s
  else if c.priv then endContext 0x17 (BitVec.ofNat 64 c.firstCause.toNat) k defer s
  else if toHandler code.toNat && bit c.tvec.toNat 18 then
    let s := modAct (Context.enter code val k kc unit defer) (keepSplit s)
    modCore (fun d => { d.pass 12 with slot := { SlotCtx.idle with ended := .stopped } }) s
  else endContext code val k defer s

/-- R336: the UNIT field of the slot being executed. -/
def slotUnitOf (raw : Nat) : Nat := fld raw 28 3

/-- The bundle at the address being executed (R122). -/
def fetchBundle (c : Core) : BitVec 128 :=
  if c.act.micro then assocGet (c.act.here / 16) 0 (if c.half then c.cstore1 else c.cstore0)
  else assocGet (c.act.pc.toNat / 16) 0 c.imem

/-- The value of slot `k` of a bundle (R122). -/
def slotWord (b : BitVec 128) (k : Nat) : BitVec 32 := BitVec.ofNat 32 (fld b.toNat (32 * k) 32)

/-- The value of the slot being executed. -/
def curWord (s : State) : BitVec 32 := slotWord (fetchBundle s.core) s.core.slot.k

/-- R335: a trap of the slot being executed. -/
def trap (code : BitVec 8) (val : W64) (s : State) : State :=
  takeTrap code val s.core.slot.k s.core.slot.k (slotUnitOf (curWord s).toNat) false s

/-- R335, R371: a trap that the translation of the access at `va` gives; where the detail does not name it, the record
concerns the access's address (R367). -/
def trapAt (va : Nat) (code : BitVec 8) (val : W64) (s : State) : State :=
  trap code val (modSlot (fun x => { x with concern := va }) s)

/-- R335, R362: raise a deferred trap in a context. -/
def Context.defer (d : Deferred) (c : Context) : Context := { c with deferred := c.deferred ++ [d] }

/-- R190, R339: what ERET takes from ESTW and EPC for its transfer. -/
def Context.returning (c : Context) : Return :=
  ⟨fld c.estw.toNat 0 2, fld c.estw.toNat 16 16, c.epc.toNat * 4 + fld c.estw.toNat 0 2⟩

/-- R190, R339: what ERET does at its commit: the fields of STW that ESTW restores, and the transfer to EPC. -/
def returnFromTrap (s : State) : State :=
  modAct (fun c =>
    let e := c.estw.toNat
    let stw := putFld (putFld (putFld c.stw.toNat 2 3 (fld e 2 3)) 32 5 (fld e 32 5)) 40 5 (fld e 40 5)
    { c with stw := BitVec.ofNat 64 stw, xfer := some ⟨fld c.epc.toNat 0 18, bit c.epc.toNat 18, some c.returning⟩ }) s

/-- R337, R339: what ERET does as its transfer takes effect: the set-aside state is reinstated, a group left open is open
again, and execution resumes at ESTW.SLOTRES. What the stopped bundle had begun goes on only where execution returns to its stopped
slot; an image that its RKMERGE or RKLD had begun to read is given up with it. With nothing set aside the Trellises and the loop nest stay, and REPC is ESTW's. -/
def Context.reinstate (r : Return) (c : Context) : Context :=
  match c.aside with
  | [] => { c with stw := BitVec.ofNat 64 (putFld (putFld c.stw.toNat 0 2 r.slot) 16 16 r.repc), xfer := none }
  | a :: l =>
    let same := a.stopped == r.stopped
    { c with
      stw := BitVec.ofNat 64 (putFld (putFld c.stw.toNat 0 2 r.slot) 16 16 a.repc.toNat)
      sq := a.sq, qa := a.qa, qb := a.qb, group := a.group, loops := a.loops, rep := a.rep
      xfer := if same then a.xfer else none
      wait := if same then a.wait else .none
      accs := if same then c.accs else c.accs.map (fun x => { x with wait := none })
      soft := if same then a.soft else none
      split := if same then a.split else []
      aside := l }

end Sys2Proof.Machine
end

