-- ==== Sys2Proof/Machine/Float.lean ====
section
/-! DEFINITION. Floating-point numbers (R67, R68), the one rounding (R75, R76) and the conversions (R77), on exact dyadic
values; the block element values (R70). Flags are bits in the order NV, DZ, OF, UF, NX (R138). -/

namespace Sys2Proof.Machine

/-- R67: a floating-point format: exponent bits, mantissa bits, bias, and whether it has infinities. -/
structure Fmt where
  eb : Nat
  mb : Nat
  bias : Nat
  hasInf : Bool
  deriving DecidableEq, Repr

/-- R67 -/
def fp32 : Fmt := ⟨8, 23, 127, true⟩
/-- R67 -/
def bf16 : Fmt := ⟨8, 7, 127, true⟩
/-- R67 -/
def fp16 : Fmt := ⟨5, 10, 15, true⟩
/-- R67 -/
def e4m3 : Fmt := ⟨4, 3, 7, false⟩
/-- R67 -/
def e5m2 : Fmt := ⟨5, 2, 15, true⟩

/-- R72: the floating-point format of a tag; tag 12 is computed as FP32 (R200). -/
def fmtOfTag (t : Nat) : Fmt :=
  match t with
  | 2 => bf16
  | 3 => fp16
  | 4 => e4m3
  | 5 => e5m2
  | _ => fp32

/-- R138: the flags. -/
def flNV : Nat := 1
/-- R138 -/
def flDZ : Nat := 2
/-- R138 -/
def flOF : Nat := 4
/-- R138 -/
def flUF : Nat := 8
/-- R138 -/
def flNX : Nat := 16

/-- A value: a NaN (signalling or quiet), an infinity, or (−1)^neg × m × 2^e. -/
inductive Num where
  | nan (signalling : Bool)
  | inf (neg : Bool)
  | fin (neg : Bool) (m : Nat) (e : Int)
  deriving DecidableEq, Repr

/-- Bits of a format in a lane or a tile. -/
def Fmt.bits (f : Fmt) : Nat := 1 + f.eb + f.mb

/-- R67: the field of the largest finite magnitude. -/
def Fmt.maxField (f : Fmt) : Nat := if f.hasInf then (2 ^ f.eb - 1) * 2 ^ f.mb - 1 else 2 ^ (f.eb + f.mb) - 2

/-- The sign bit as a value of the format. -/
def Fmt.signBit (f : Fmt) (neg : Bool) : Nat := b2n neg * 2 ^ (f.eb + f.mb)

/-- R68: the canonical NaN. -/
def Fmt.nan (f : Fmt) : Nat :=
  if f.hasInf then (2 ^ f.eb - 1) * 2 ^ f.mb + 2 ^ (f.mb - 1) else 2 ^ (f.eb + f.mb) - 1

/-- R67: infinity; in E4M3 the largest finite magnitude stands for it (R77). -/
def Fmt.inf (f : Fmt) (neg : Bool) : Nat :=
  f.signBit neg + (if f.hasInf then (2 ^ f.eb - 1) * 2 ^ f.mb else f.maxField)

/-- The largest finite magnitude with a sign. -/
def Fmt.big (f : Fmt) (neg : Bool) : Nat := f.signBit neg + f.maxField

/-- R67, R68: the value of bits of a format; E4M3 and E5M2 NaNs are quiet. -/
def Fmt.decode (f : Fmt) (v : Nat) : Num :=
  let m := fld v 0 f.mb
  let e := fld v f.mb f.eb
  let neg := bit v (f.eb + f.mb)
  if f.hasInf && e == 2 ^ f.eb - 1 then
    if m == 0 then .inf neg else .nan (5 < f.mb && !bit m (f.mb - 1))
  else if !f.hasInf && e == 2 ^ f.eb - 1 && m == 2 ^ f.mb - 1 then .nan false
  else if e == 0 then .fin neg m (1 - f.bias - f.mb)
  else .fin neg (2 ^ f.mb + m) ((e : Int) - f.bias - f.mb)

/-- m × 2^(−sh) rounded to nearest, ties to even, and whether that is exact. -/
def roundShift (m sh : Nat) : Nat × Bool :=
  let k := m / 2 ^ sh
  let r := m % 2 ^ sh
  let up := decide (2 ^ sh < 2 * r) || (decide (2 * r = 2 ^ sh) && k % 2 == 1)
  (if up then k + 1 else k, r == 0)

/-- m × 2^e in units of 2^q: rounded to nearest even, and whether exact. -/
def roundAt (m : Nat) (e q : Int) : Nat × Bool :=
  if q ≤ e then (m * 2 ^ (e - q).toNat, true) else roundShift m (q - e).toNat

/-- R76: whether m × 2^e is tiny after rounding with an unbounded exponent. -/
def Fmt.tiny (f : Fmt) (m : Nat) (e : Int) : Bool :=
  let top := e + Nat.log2 m
  let lo : Int := 1 - f.bias
  decide (top < lo) && !(decide (top = lo - 1) && (roundAt m e (top - f.mb)).1 == 2 ^ (f.mb + 1))

/-- R75, R76: RoundNE of (−1)^neg × m × 2^e, with the flags it sets; `sat` clamps overflow (R77). -/
def Fmt.roundSat (f : Fmt) (sat neg : Bool) (m : Nat) (e : Int) : Nat × Nat :=
  if m == 0 then (f.signBit neg, 0)
  else
    let top := e + Nat.log2 m
    let q : Int := max (top - f.mb) (1 - f.bias - f.mb)
    let r := roundAt m e q
    let field := ((q + f.bias + f.mb - 1).toNat) * 2 ^ f.mb + r.1
    if f.maxField < field then (if sat then f.big neg else f.inf neg, flOF + flNX)
    else if r.2 then (f.signBit neg + field, 0)
    else (f.signBit neg + field, if f.tiny m e then flUF + flNX else flNX)

/-- R75: RoundNE. -/
def Fmt.round (f : Fmt) (neg : Bool) (m : Nat) (e : Int) : Nat × Nat := f.roundSat false neg m e

/-- RoundNE of an exact dyadic integer multiple. -/
def Fmt.roundInt (f : Fmt) (v : Int) (e : Int) : Nat × Nat := f.round (decide (v < 0)) v.natAbs e

/-- R68, R76: what an operation with a NaN source returns. -/
def nanResult (f : Fmt) (xs : List Num) : Option (Nat × Nat) :=
  if xs.any (fun x => match x with | .nan _ => true | _ => false) then
    some (f.nan, if xs.any (fun x => match x with | .nan true => true | _ => false) then flNV else 0)
  else none

/-- A finite value as an integer multiple of 2^q, for q no greater than its exponent. -/
def scaled (neg : Bool) (m : Nat) (e q : Int) : Int :=
  let k : Int := m * 2 ^ (e - q).toNat
  if neg then -k else k

/-- R76: the exact sum of two finite values, rounded once; a zero sum is +0 unless both signs are minus. -/
def Fmt.addFin (f : Fmt) (n1 : Bool) (m1 : Nat) (e1 : Int) (n2 : Bool) (m2 : Nat) (e2 : Int) : Nat × Nat :=
  let q := min e1 e2
  let v := scaled n1 m1 e1 q + scaled n2 m2 e2 q
  if v == 0 then (f.signBit (n1 && n2), 0) else f.roundInt v q

/-- R76: addition of two values. -/
def Fmt.addNum (f : Fmt) (x y : Num) : Nat × Nat :=
  match nanResult f [x, y] with
  | some r => r
  | none =>
    match x, y with
    | .inf a, .inf b => if a == b then (f.inf a, 0) else (f.nan, flNV)
    | .inf a, _ => (f.inf a, 0)
    | _, .inf b => (f.inf b, 0)
    | .fin n1 m1 e1, .fin n2 m2 e2 => f.addFin n1 m1 e1 n2 m2 e2
    | _, _ => (f.nan, 0)

/-- The negative of a value. -/
def Num.negate : Num → Num
  | .inf n => .inf (!n)
  | .fin n m e => .fin (!n) m e
  | x => x

/-- R78: the exact product; none when it is invalid (infinity times zero). -/
def mulNum (x y : Num) : Option Num :=
  match x, y with
  | .nan s, .nan t => some (.nan (s || t))
  | .nan s, _ => some (.nan s)
  | _, .nan s => some (.nan s)
  | .inf a, .inf b => some (.inf (a != b))
  | .inf a, .fin b m _ => if m == 0 then none else some (.inf (a != b))
  | .fin a m _, .inf b => if m == 0 then none else some (.inf (a != b))
  | .fin a m e, .fin b m' e' => some (.fin (a != b) (m * m') (e + e'))

/-- R76: a value rounded to a format. -/
def Fmt.roundNum (f : Fmt) (x : Num) : Nat × Nat :=
  match x with
  | .nan s => (f.nan, if s then flNV else 0)
  | .inf n => (f.inf n, 0)
  | .fin n m e => f.round n m e

/-- R200: multiplication. -/
def Fmt.mulBits (f : Fmt) (x y : Num) : Nat × Nat :=
  match mulNum x y with
  | none => (f.nan, flNV)
  | some p => f.roundNum p

/-- R76, R200: x × y + z, rounded once; a NaN source decides before an invalid product. -/
def Fmt.fmaBits (f : Fmt) (x y z : Num) : Nat × Nat :=
  match nanResult f [x, y, z] with
  | some r => r
  | none =>
    match mulNum x y with
    | none => (f.nan, flNV)
    | some p => f.addNum p z

/-- The order of two values that are no NaN; +0 equals −0. -/
def cmpNum (x y : Num) : Ordering :=
  match x, y with
  | .inf a, .inf b => if a == b then .eq else if a then .lt else .gt
  | .inf a, _ => if a then .lt else .gt
  | _, .inf b => if b then .gt else .lt
  | .fin n1 m1 e1, .fin n2 m2 e2 =>
    let q := min e1 e2
    compare (scaled n1 m1 e1 q) (scaled n2 m2 e2 q)
  | _, _ => .eq

/-- A NaN. -/
def Num.isNan : Num → Bool
  | .nan _ => true
  | _ => false

/-- A signalling NaN. -/
def Num.isSnan : Num → Bool
  | .nan s => s
  | _ => false

/-- The sign of a value. -/
def Num.isNeg : Num → Bool
  | .inf n => n
  | .fin n _ _ => n
  | .nan _ => false

/-- R157: FCMPS and VCMP conditions with the NV flag. -/
def fcmp (cc : Nat) (x y : Num) : Bool × Nat :=
  let un := x.isNan || y.isNan
  let sn := x.isSnan || y.isSnan
  let o := cmpNum x y
  let quiet := cc == 0 || cc == 1 || cc == 6 || cc == 7
  let fl := if un && (sn || !quiet) then flNV else 0
  let r := match cc with
    | 0 => !un && o == .eq
    | 1 => un || o != .eq
    | 2 => !un && o == .lt
    | 3 => !un && o != .gt
    | 4 => !un && o == .gt
    | 5 => !un && o != .lt
    | 6 => un
    | _ => !un
  (r, fl)

/-- R200: VMIN (`mx` false, −0 below +0) and VMAX on bits. -/
def Fmt.minMax (f : Fmt) (mx : Bool) (x y : Nat) : Nat × Nat :=
  let a := f.decode x
  let b := f.decode y
  match nanResult f [a, b] with
  | some r => r
  | none =>
    let less := match cmpNum a b with
      | .lt => true
      | .gt => false
      | .eq => a.isNeg && !b.isNeg
    (if less != mx then x else y, 0)

/-- R200: the bits with the sign set by `g`; a NaN source gives the canonical NaN. -/
def Fmt.signOp (f : Fmt) (g : Bool → Bool) (x : Nat) : Nat × Nat :=
  match nanResult f [f.decode x] with
  | some r => r
  | none => (f.signBit (g (bit x (f.eb + f.mb))) + fld x 0 (f.eb + f.mb), 0)

/-! ### Reciprocal, reciprocal root, exponential and logarithm (R200, R201) -/

/-- ⌊√n⌋, one bit at a time from bit i − 1 down. -/
def isqrtFrom (n : Nat) : Nat → Nat → Nat
  | 0, r => r
  | i + 1, r => isqrtFrom n i (if (r + 2 ^ i) * (r + 2 ^ i) ≤ n then r + 2 ^ i else r)

/-- ⌊√n⌋. -/
def isqrt (n : Nat) : Nat := isqrtFrom n (Nat.log2 n / 2 + 1) 0

/-- RoundNE of a value known from below as m × 2^e, exactly or not. -/
def Fmt.roundSticky (f : Fmt) (neg : Bool) (m : Nat) (e : Int) (exact : Bool) : Nat × Nat :=
  f.round neg (2 * m + b2n (!exact)) (e - 1)

/-- R201: VRCP. -/
def Fmt.rcp (f : Fmt) (x : Num) : Nat × Nat :=
  match x with
  | .nan s => (f.nan, if s then flNV else 0)
  | .inf n => (f.signBit n, 0)
  | .fin n m e =>
    if m == 0 then (f.inf n, flDZ)
    else
      let k := Nat.log2 m + f.mb + 4
      f.roundSticky n (2 ^ k / m) (-e - k) (2 ^ k % m == 0)

/-- R201: VRSQ. -/
def Fmt.rsq (f : Fmt) (x : Num) : Nat × Nat :=
  match x with
  | .nan s => (f.nan, if s then flNV else 0)
  | .inf n => if n then (f.nan, flNV) else (0, 0)
  | .fin n m e =>
    if m == 0 then (f.inf n, flDZ)
    else if n then (f.nan, flNV)
    else
      let odd := e % 2 != 0
      let m' := if odd then 2 * m else m
      let e' := if odd then e - 1 else e
      let k := Nat.log2 m' + f.mb + 6
      let r := isqrt (2 ^ (2 * k) / m')
      f.roundSticky false r (-(e' / 2) - k) (r * r * m' == 2 ^ (2 * k))

/-- Fraction bits of the fixed-point values from which VEXP2 and VLOG2 are rounded. -/
def fixBits : Nat := 256

/-- 2 × Σ t^(2i+1) / (2i+1) in fixed point, t being `t` / 2^fixBits: `n` terms from term `i` with power `p`. -/
def atanhSum (t2 : Nat) : Nat → Nat → Nat → Nat
  | 0, _, _ => 0
  | n + 1, i, p => 2 * p / (2 * i + 1) + atanhSum t2 n (i + 1) (p * t2 / 2 ^ fixBits)

/-- ln of (a / b) in fixed point, for 1 ≤ a / b ≤ 2. -/
def lnFix (a b : Nat) : Nat :=
  let t := (a - b) * 2 ^ fixBits / (a + b)
  atanhSum (t * t / 2 ^ fixBits) 90 0 t

/-- Σ t^i / i! in fixed point: `n` further terms after term `i` with value `p`. -/
def expSum (t : Nat) : Nat → Nat → Nat → Nat
  | 0, _, p => p
  | n + 1, i, p => p + expSum t n (i + 1) (p * t / 2 ^ fixBits / (i + 1))

/-- 2^f in fixed point, for a fraction f in fixed point. -/
def exp2Fix (f : Nat) : Nat := expSum (f * lnFix 2 1 / 2 ^ fixBits) 70 0 (2 ^ fixBits)

/-- R201: VEXP2. -/
def Fmt.exp2 (f : Fmt) (x : Num) : Nat × Nat :=
  match x with
  | .nan s => (f.nan, if s then flNV else 0)
  | .inf n => if n then (0, 0) else (f.inf false, 0)
  | .fin n m e =>
    if m == 0 then f.round false 1 0
    else if 10 < e + Nat.log2 m then f.round false 3 (if n then -2000 else 2000)
    else
      let v := scaled n m e (-fixBits)
      let ip := v / (2 ^ fixBits : Int)
      let fr := (v % (2 ^ fixBits : Int)).toNat
      if fr == 0 then f.round false 1 ip
      else f.roundSticky false (exp2Fix fr) (ip - fixBits) false

/-- R201: VLOG2. -/
def Fmt.log2 (f : Fmt) (x : Num) : Nat × Nat :=
  match x with
  | .nan s => (f.nan, if s then flNV else 0)
  | .inf n => if n then (f.nan, flNV) else (f.inf false, 0)
  | .fin n m e =>
    if m == 0 then (f.inf true, flDZ)
    else if n then (f.nan, flNV)
    else
      let k := Nat.log2 m
      let ip : Int := e + k
      if m == 2 ^ k then f.roundInt ip 0
      else
        let v : Int := ip * 2 ^ fixBits + (lnFix m (2 ^ k) * 2 ^ fixBits / lnFix 2 1 : Nat)
        f.roundSticky (decide (v < 0)) v.natAbs (-fixBits) false

/-! ### Conversions (R77) -/

/-- R77, R207: a value converted to a floating-point format, with the saturating option. DESIGN CHOICE (assumption 71): a signalling NaN sets NV in
every target, E4M3 among them. -/
def Fmt.convert (f : Fmt) (sat : Bool) (x : Num) : Nat × Nat :=
  match x with
  | .nan s => (f.nan, if s then flNV else 0)
  | .inf n => if sat || !f.hasInf then (f.big n, flOF) else (f.inf n, 0)
  | .fin n m e => f.roundSat sat n m e

/-- The integer nearest to m × 2^e (ties to even), or its integer part, and whether that is the value. -/
def toIntMag (trunc : Bool) (m : Nat) (e : Int) : Nat × Bool :=
  if 0 ≤ e then (m * 2 ^ e.toNat, true)
  else if trunc then (m / 2 ^ (-e).toNat, m % 2 ^ (-e).toNat == 0)
  else roundShift m (-e).toNat

/-- R77: a value converted to a signed integer of n bits. -/
def Num.toInt (n : Nat) (trunc : Bool) (x : Num) : Int × Nat :=
  match x with
  | .nan _ => (0, flNV)
  | .inf s => (if s then -(2 ^ (n - 1) : Int) else 2 ^ (n - 1) - 1, flNV)
  | .fin s m e =>
    let r := if decide (200 < e) && m != 0 then (2 ^ 200, true) else toIntMag trunc m e
    let v : Int := if s then -(r.1 : Int) else r.1
    let c := satS n v
    (c, if c != v then flNV else if r.2 then 0 else flNX)

/-- R77: an integer converted to a format. -/
def Fmt.ofInt (f : Fmt) (sat : Bool) (v : Int) : Nat × Nat := f.roundSat sat (decide (v < 0)) v.natAbs 0

/-- R70: the exact value of an element code of block format Bw. -/
def blockValue (w : Nat) (exp step code : Nat) : Num :=
  .fin (bit code w) (fld code 0 w) ((exp : Int) - 127 - step - (w - 1))

/-- R78: Exp(x) of a nonzero finite value. -/
def Num.exp (m : Nat) (e : Int) : Int := e + Nat.log2 m

end Sys2Proof.Machine
end

