-- ==== Sys2Proof/Machine/Memory.lean ====
section
/-! DEFINITION. The local address space (R26 to R28): memory cells in canonical form, the encryption of DRAM (R100), the
aperture registers (R7, R8), the windows of R249, and whole accesses to any of them at the place that holds the bytes. -/

namespace Sys2Proof.Machine

/-! ### Memory cells -/

/-- What an unlisted address reads as (assumption 2). -/
def unlisted : Byte := 0

/-- The byte at an address. -/
def memGet : List Host.Cell → Nat → Byte
  | [], _ => unlisted
  | (k, v) :: r, a => if k == a then v else memGet r a

/-- Write one byte, keeping the canonical form. -/
def memPut : List Host.Cell → Nat → Byte → List Host.Cell
  | [], a, b => if b == unlisted then [] else [(a, b)]
  | (k, v) :: r, a, b =>
    if a < k then (if b == unlisted then (k, v) :: r else (a, b) :: (k, v) :: r)
    else if a == k then (if b == unlisted then r else (a, b) :: r)
    else (k, v) :: memPut r a b

/-- The canonical form: addresses strictly rise above `lo`, and no byte listed equals what an unlisted address reads as. -/
def memWfFrom : Option Nat → List Host.Cell → Bool
  | _, [] => true
  | lo, (k, v) :: r => (match lo with | none => true | some l => decide (l < k)) && v != unlisted && memWfFrom (some k) r

/-- The canonical form of memory. -/
def Memory.wf (m : List Host.Cell) : Bool := memWfFrom none m

/-- n bytes from an address. -/
def memRead (m : List Host.Cell) (a : Nat) : Nat → List Byte
  | 0 => []
  | n + 1 => memGet m a :: memRead m (a + 1) n

/-- Write bytes from an address. -/
def memWrite (m : List Host.Cell) (a : Nat) : List Byte → List Host.Cell
  | [] => m
  | b :: bs => memWrite (memPut m a b) (a + 1) bs

/-! ### Regions (R27) -/

/-- R27: the kinds of local address. -/
inductive Region where
  | aperture
  | slice
  | dram
  | lpddr
  | hole
  deriving DecidableEq, Repr

/-- R27, R28: the region of a local address. -/
def regionOf (a : Nat) : Region :=
  if a < 0x100000000 then .aperture
  else if 0x1000000000 ≤ a && a < 0x1200000000 then
    if populated ((a - 0x1000000000) / 0x400000) then .slice else .hole
  else if 0x4000000000 ≤ a && a < 0x5000000000 then .dram
  else if 0x10000000000 ≤ a && a < 0x1C000000000 then .lpddr
  else .hole

/-- R28: the base of a core's slice. -/
def sliceBase (cid : Nat) : Nat := 0x1000000000 + cid * 0x400000

/-- R28: the CID whose slice holds a local address. -/
def sliceCid (a : Nat) : Nat := (a - 0x1000000000) / 0x400000

/-- R26: the local address of a device physical address. -/
def localOf (pa : Nat) : Nat := pa % 2 ^ 46

/-- R26: the package of a device physical address. -/
def pkgOf (pa : Nat) : Nat := pa / 2 ^ 46 % 1024

/-- R303: the new core of a remapped linear core number, following the entries. -/
def remapFrom : List Remap → Nat → Nat
  | [], n => n
  | r :: rs, n => if r.old == n then r.new else remapFrom rs n

/-- R303: a slice address performed in the slice its core's CID is remapped to. -/
def remapLocal (s : State) (a : Nat) : Nat :=
  if regionOf a == .slice then
    let n := lcnOf (sliceCid a)
    let n' := remapFrom s.remaps n
    if n' == n then a else sliceBase (cidOf n') + a % 0x400000
  else a

/-! ### Versions of the tables (R374) -/

/-- R374: whether a request that was routed before number `id` has not completed: an access or a burst. -/
def routedBefore (s : State) (id : Nat) : Bool :=
  s.accesses.any (fun a => decide (a.id < id) && !a.performed) || s.bursts.any (fun b => decide (b.id < id))

/-- R374: whether an older version of the region table is still live, so that the next one must wait. -/
def regionDrains (s : State) : Bool := s.tables.departed.isSome

/-- R374: a new version of the region table is in force, and its drain markers are on their way; `l` are the entries that only the version
before it has. -/
def newRegion (l : List Remap) (s : State) : State :=
  sometime .regionDrainComplete
    { s with tables := { s.tables with region := (s.tables.region + 1) % 4, departed := some l, regionSince := s.nextId } }

/-- R303, R374: the machine as request number `id` finds the CIDs in it: one that was routed under the older version still goes where an
entry that has been freed since leads. What has been remapped since holds for deliveries in flight too. -/
def asSent (id : Nat) (s : State) : State :=
  match s.tables.departed with
  | some l => if id < s.tables.regionSince then { s with remaps := s.remaps ++ l } else s
  | none => s

/-! ### Encryption (R100) -/

/-- Whether the bytes at a local address are encrypted (R92). -/
def encrypted (a : Nat) : Bool := regionOf a == .dram || regionOf a == .lpddr

/-- R25, R309: the key slot's record; slot 0 holds firmware's own key. -/
def keySlotAt (s : State) (k : Nat) : KeySlot := assocGet k ⟨k == 0, none, 0, 0⟩ s.keys

/-- R100, R309: the key a unit is under when written through slot `k`, as a number: firmware's own, a tenant's, or what a slot
without a key holds. The same key in any slot is one number. -/
def keyStamp (s : State) (k : Nat) : Nat :=
  if k == 0 then 0
  else if (keySlotAt s k).installed then 2 * (keySlotAt s k).key + 2
  else 2 * (k * 2 ^ 32 + (keySlotAt s k).gen) + 1

/-- The key stamp a 64-byte unit was last written under; none for a unit never written. -/
def unitStamp (s : State) (u : Nat) : Option Nat := (s.unitKey.find? (fun e => e.1 == u)).map (fun e => e.2.1)

/-- Record the key stamp of a unit. -/
def setStamp (u st : Nat) : List (Nat × Nat × Nat) → List (Nat × Nat × Nat)
  | [] => [(u, st, 0)]
  | e :: r => if u < e.1 then (u, st, 0) :: e :: r else if u == e.1 then (u, st, 0) :: r else e :: setStamp u st r

/-- The 64 stored bytes of the unit that holds an address. -/
def unitBytes (s : State) (u : Nat) : List Byte := memRead s.mem (u * 64) 64

/-- R100: the byte at a DRAM address as read under key slot `k`. -/
def readKeyed (s : State) (k a : Nat) : Byte :=
  match unitStamp s (a / 64) with
  | none => memGet s.mem a
  | some w =>
    if w == keyStamp s k then memGet s.mem a
    else Config.decrypted w (keyStamp s k) (a / 64) (a % 64) (unitBytes s (a / 64))

/-- R100: re-encrypt a unit under slot `k` before a part of it is written through `k`. -/
def rekey (s : State) (k u : Nat) : State :=
  let st := keyStamp s k
  if unitStamp s u == some st then s
  else
    let plain := (List.range 64).map (fun i => readKeyed s k (u * 64 + i))
    { s with mem := memWrite s.mem (u * 64) plain, unitKey := setStamp u st s.unitKey }

/-- The numbers of the 64-byte units that a span touches. -/
def unitsOf (a n : Nat) : List Nat := if n == 0 then [] else (List.range ((a + n - 1) / 64 - a / 64 + 1)).map (fun i => a / 64 + i)

/-- R100, R377: write DRAM bytes through key slot `k`; a unit written whole is good again. -/
def writeKeyed (k a : Nat) (bs : List Byte) (s : State) : State :=
  let s := (unitsOf a bs.length).foldl (fun s u => rekey s k u) s
  { s with
    mem := memWrite s.mem a bs
    health := { s.health with bad := s.health.bad.filter (fun b => !(decide (a ≤ b) && decide (b + 64 ≤ a + bs.length))) } }

/-! ### Aperture registers -/

/-- R7: what a register's map says: reset value, the bits that are RW, the bits that are W1C. -/
structure RegInfo where
  reset : Nat
  rw : Nat
  w1c : Nat
  deriving DecidableEq, Repr

/-- The ones of bits [lo + len − 1 : lo]. -/
def ones (lo len : Nat) : Nat := (2 ^ len - 1) * 2 ^ lo

/-- R41 to R45, R64, R277, R341, R360: registers of a kiosk page. -/
def kioskReg (o : Nat) : Option RegInfo :=
  if o == 0x40 then some ⟨0x10000000108, ones 0 9 + ones 16 48, 0⟩
  else if o == 0x48 || o == 0x58 || o == 0x60 || o == 0x68 then some ⟨0, 0, 0⟩
  else if o == 0x50 then some ⟨0, ones 0 56, 0⟩
  else if o == 0x70 then some ⟨0x3F000, ones 4 15, 0⟩
  else if 0x100 ≤ o && o < 0x180 then some ⟨0, ones 0 36, 0⟩
  else if o == 0x200 then some ⟨0x1010000, ones 0 25, 0⟩
  else none

/-- R310, R314, R297, R305, R392: registers of the Lodge's page. -/
def lodgeReg (o : Nat) : Option RegInfo :=
  if o == 0 then some ⟨0, ones 0 11 + ones 16 32, 0⟩
  else if o == 0x10 || o == 0x20 || o == 0x110 then some ⟨0, 0, 0⟩
  else if o == 0x18 then some ⟨1200, ones 0 32, 0⟩
  else if o == 0x100 then some ⟨0, ones 0 2, 0⟩
  else if o == 0x108 then some ⟨0, ones 12 44, 0⟩
  else if 0x200 ≤ o && o < 0x400 then some ⟨0, 1 + ones 5 51, 0⟩
  else none

/-- R29, R30, R41 to R45, R64, R98, R273, R275, R277, R286, R288, R294, R297, R305, R310, R314, R341, R356, R360, R369,
R376, R392: the register at an 8-byte aligned local address. -/
def regInfo (a : Nat) : Option RegInfo :=
  if a == 0 then some ⟨0x1004804B, 0, 0⟩
  else if 0x100 ≤ a && a < 0x190 then some ⟨2 ^ 64 - 1, 0, 0⟩
  else if 0x1000000 ≤ a && a < 0x1120000 then kioskReg (a % 0x1000)
  else if 0x2000000 ≤ a && a < 0x2008000 then
    (if 0x100 ≤ a % 0x1000 && a % 0x1000 < 0x180 then some ⟨0, ones 0 36, 0⟩
     else if a % 0x1000 == 0x200 then some ⟨0x100124F80, ones 0 33, 0⟩ else none)
  else if 0x2100100 ≤ a && a < 0x2100180 || 0x2101100 ≤ a && a < 0x2101180 then some ⟨0, ones 0 36, 0⟩
  else if 0x2200000 ≤ a && a < 0x2208000 then
    (if a % 0x1000 == 0 then some ⟨0x800808201010, ones 0 48, 0⟩
     else if 0x100 ≤ a % 0x1000 && a % 0x1000 < 0x140 then
       let same := (a % 0x1000 - 0x100) / 8 == (a - 0x2200000) / 0x1000
       some (if same then ⟨0, 0, 0⟩ else ⟨1, ones 0 4, 0⟩)
     else none)
  else if a == 0x2300000 then some ⟨0x40004040960, ones 0 44, 0⟩
  else if a == 0x2301000 then some ⟨0, ones 6 50, 0⟩
  else if 0x2400000 ≤ a && a < 0x2412000 then
    (if a % 0x40 == 0 then some ⟨0x5F1FC0, ones 0 13 + ones 16 8, 0⟩
     else if a % 0x40 == 8 then some ⟨3, ones 0 2, ones 2 3⟩ else none)
  else if 0x2500000 ≤ a && a < 0x2500400 then lodgeReg (a % 0x1000)
  else if 0x2600000 ≤ a && a < 0x2600820 then
    (if a % 0x20 == 0 then some ⟨0, ones 0 5 + ones 12 44, 0⟩ else if a % 0x20 == 8 then some ⟨0, ones 16 16, 0⟩ else none)
  else if a == 0x3000000 then some ⟨0, ones 19 37, 0⟩
  else none

/-- The value kept for a register. -/
def regRaw (s : State) (a : Nat) : Nat :=
  (assocGet a (BitVec.ofNat 64 (((regInfo a).map RegInfo.reset).getD 0)) s.regs).toNat

/-- Keep a value for a register. -/
def setReg (a v : Nat) (s : State) : State := { s with regs := assocPut a (BitVec.ofNat 64 v) s.regs }

/-- R43: KDEPTH. -/
def kdepth (k : Kiosk) : Nat :=
  (k.bands.getD 0 []).length + (k.bands.getD 1 []).length * 2 ^ 9 + (k.bands.getD 2 []).length * 2 ^ 18 +
    (k.bands.getD 3 []).length * 2 ^ 27

/-- R360: KOVR. -/
def kovr (k : Kiosk) : Nat :=
  match k.overrun with
  | [] => 0
  | e :: r => e.task.taskid + 2 ^ 32 + (r.length + 1) * 2 ^ 33

/-- R7, R8: the value a read of the register at an 8-byte aligned address returns. An address of the apertures without a
register reads as zero (assumption 16). -/
def readReg (s : State) (a : Nat) : Nat :=
  if 0x1000000 ≤ a && a < 0x1120000 then
    let k := kioskAt s ((a - 0x1000000) / 0x1000)
    match a % 0x1000 with
    | 0x48 => kdepth k
    | 0x60 => kovr k
    | 0x68 => 0
    | _ => if (kioskReg (a % 0x1000)).isSome then regRaw s a else 0
  else if a == 0x2500020 then s.rack.last.toNat + s.rack.ignored * 2 ^ 32 + b2n s.rack.floor * 2 ^ 48
  else if a == 0x2500100 then fld (regRaw s a) 0 2 + (if s.handover.refused then 6 else s.handover.st) * 8 + s.handover.hbok * 64 + s.handover.sver * 2 ^ 14
  else if (regInfo a).isSome then regRaw s a else 0

/-- R7: the value a register keeps when `v` is written to it. -/
def regWritten (i : RegInfo) (old v : Nat) : Nat :=
  (old &&& (2 ^ 64 - 1 - i.rw - i.w1c)) ||| (v &&& i.rw) ||| (old &&& i.w1c &&& (2 ^ 64 - 1 - v % 2 ^ 64))

/-- R311: the firmware role that a plain register belongs to: the Lodge's own registers, a kiosk's page, the fabric's. -/
def roleOf (a : Nat) : Option Nat :=
  if 0x2500000 ≤ a && a < 0x2501000 && a != 0x2500100 then some 0
  else if 0x1000000 ≤ a && a < 0x1120000 then some 1
  else if 0x2200000 ≤ a && a < 0x2208000 then some 2
  else none

/-- R311: an input to the role being replaced, from the freeze to the end of probation, is journalled; the new instance takes it. -/
def journal (r : Option Nat) (i : Happening) (s : State) : State :=
  if (s.handover.frozen || s.handover.st == 3) && r == some s.handover.role then
    { s with handover := { s.handover with
      journal := s.handover.journal ++ [i]
      taken := if s.handover.st == 3 then s.handover.taken ++ [i] else s.handover.taken } }
  else s

/-- R310: the header of the image staged at FWIMG, whose layout the spec does not give. -/
def stagedImage (s : State) : FirmwareImage :=
  let f (i : Nat) : Nat := Config.stagedImage s.free (fld (regRaw s 0x2500108) 12 44 * 0x1000) i
  ⟨f 0 == 1, f 1, f 2, f 3, f 4⟩

/-- R7, R8: a plain register write. -/
def plainRegWrite (a v : Nat) (s : State) : State :=
  match regInfo a with
  | none => s
  | some i => setReg a (regWritten i (regRaw s a) v) s

/-- R7, R311: a plain register write by software: for the role being replaced it is journalled, and to a frozen Lodge it waits. -/
def roleRegWrite (a v : Nat) (s : State) : State :=
  if s.handover.frozen && s.handover.role == 0 && roleOf a == some 0 then soon (.registerWrite a (BitVec.ofNat 64 v)) s
  else plainRegWrite a v (journal (roleOf a) (.registerWrite a (BitVec.ofNat 64 v)) s)

/-- R7, R9: a register write as its destination takes it: registers with an action of their own act through the happening
that the manual gives the action. -/
def regWrite (a v : Nat) (s : State) : State :=
  let w := BitVec.ofNat 64 v
  let o := a % 0x1000
  if 0x1000000 ≤ a && a < 0x1120000 then
    let q := (a - 0x1000000) / 0x1000
    if o == 0x68 then
      match fld v 32 2 with
      | 0 => soon (.kactAddBudget q (fld v 0 32) (BitVec.ofNat 30 (fld v 34 30))) s
      | 1 => soon (.kactKill q (fld v 0 32)) s
      | 2 => soon (.kactRerun q (fld v 0 32)) s
      | _ => s
    else if 0x100 ≤ o && o < 0x180 then soon (.barcfgWrite a w) s
    else roleRegWrite a v s
  else if 0x2000000 ≤ a && a < 0x2008000 then
    if o == 0x200 then soon (.hwcfgDrain ((a - 0x2000000) / 0x1000) w) (plainRegWrite a v s)
    else if 0x100 ≤ o && o < 0x180 then soon (.barcfgWrite a w) s
    else plainRegWrite a v s
  else if 0x2100000 ≤ a && a < 0x2102000 then
    if 0x100 ≤ o && o < 0x180 then soon (.barcfgWrite a w) s else s
  else if 0x2200000 ≤ a && a < 0x2208000 then
    if o == 0 then soon (.fpermWrite ((a - 0x2200000) / 0x1000) w) s
    else if 0x100 ≤ o && o < 0x140 then soon (.conntabWrite ((a - 0x2200000) / 0x1000) ((o - 0x100) / 8) w) s
    else s
  else if 0x2400000 ≤ a && a < 0x2412000 && a % 0x40 == 0 then soon (.pwrctlWrite ((a - 0x2400000) / 0x40) w) s
  else if a == 0x2500000 then soon (.boostLeaseRequest w) s
  else if a == 0x2500010 then soon (.rackBudgetMessage w) s
  else if a == 0x2500100 then soon (.fwhoGo w (stagedImage s)) { s with free := s.free + 1 }
  else if a == 0x2500110 then soon .heartbeat s
  else if 0x2600000 ≤ a && a < 0x2600820 && a % 0x20 == 0 then soon (.errbaseWrite ((a - 0x2600000) / 0x20) w) s
  else roleRegWrite a v s

/-! ### The windows of instruction memory and control store (R249) -/

/-- R122: byte `i` of a bundle. -/
def bundleByte (b : BitVec 128) (i : Nat) : Byte := BitVec.ofNat 8 (fld b.toNat (8 * i) 8)

/-- A bundle with byte `i` replaced. -/
def setBundleByte (b : BitVec 128) (i : Nat) (v : Byte) : BitVec 128 := BitVec.ofNat 128 (putFld b.toNat (8 * i) 8 v.toNat)

/-- The byte at an offset of a store of bundles. -/
def lineByte (l : List (Nat × BitVec 128)) (o : Nat) : Byte := bundleByte (assocGet (o / 16) 0 l) (o % 16)

/-- Write a byte at an offset of a store of bundles. -/
def setLineByte (l : List (Nat × BitVec 128)) (o : Nat) (v : Byte) : List (Nat × BitVec 128) :=
  assocPut (o / 16) (setBundleByte (assocGet (o / 16) 0 l) (o % 16) v) l

/-- R249: the byte at an aperture address. -/
def apertureByte (s : State) (a : Nat) : Byte :=
  if 0x40000000 ≤ a && a < 0x60000000 then
    let cid := (a - 0x40000000) / 0x40000
    if populated cid then lineByte (coreAt s (lcnOf cid)).imem (a % 0x40000) else 0
  else if 0x60000000 ≤ a && a < 0x68000000 then
    let cid := (a - 0x60000000) / 0x10000
    if populated cid then
      let c := coreAt s (lcnOf cid)
      if a % 0x10000 < 0x8000 then lineByte c.cstore0 (a % 0x8000) else lineByte c.cstore1 (a % 0x8000)
    else 0
  else BitVec.ofNat 8 (fld (readReg s (a / 8 * 8)) (8 * (a % 8)) 8)

/-- R249: write a byte of a window. -/
def windowByteWrite (a : Nat) (v : Byte) (s : State) : State :=
  if a < 0x60000000 then
    let cid := (a - 0x40000000) / 0x40000
    if populated cid then modCoreAt (lcnOf cid) (fun c => { c with imem := setLineByte c.imem (a % 0x40000) v }) s else s
  else
    let cid := (a - 0x60000000) / 0x10000
    if populated cid then
      modCoreAt (lcnOf cid) (fun c =>
        if a % 0x10000 < 0x8000 then { c with cstore0 := setLineByte c.cstore0 (a % 0x8000) v }
        else { c with cstore1 := setLineByte c.cstore1 (a % 0x8000) v }) s
    else s

/-- Write bytes of a window. -/
def windowWrite : Nat → List Byte → State → State
  | _, [], s => s
  | a, b :: bs, s => windowWrite (a + 1) bs (windowByteWrite a b s)

/-- The register values that a span of bytes written to the apertures gives, register by register; bytes of a register that
the span does not cover keep its value in RW fields and are 0 in others (assumption 16). -/
def regSpan (a : Nat) (bs : List Byte) (s : State) : State :=
  ((List.range ((a + bs.length - 1) / 8 - a / 8 + 1)).map (fun i => a / 8 + i)).foldl (fun s r =>
    let i := (regInfo (r * 8)).getD ⟨0, 0, 0⟩
    let v := fromBytes ((List.range 8).map (fun j =>
      let x := r * 8 + j
      if a ≤ x && x < a + bs.length then bs.getD (x - a) 0
      else BitVec.ofNat 8 (fld (readReg s (r * 8) &&& i.rw) (8 * j) 8)))
    regWrite (r * 8) v s) s

/-- R41: KPORT of a kiosk spans the first 64 bytes of its page. -/
def isKport (a : Nat) : Bool := 0x1000000 ≤ a && a < 0x1120000 && a % 0x1000 < 0x40

/-- R7, R41, R249: write bytes of the apertures; a single aligned 64-byte write to a KPORT delivers a descriptor. -/
def apertureWrite (a : Nat) (bs : List Byte) (s : State) : State :=
  if bs.isEmpty then s
  else if 0x40000000 ≤ a && a < 0x68000000 then windowWrite a bs s
  else if isKport a then
    if a % 64 == 0 && bs.length == 64 then soon (.kportWrite ((a - 0x1000000) / 0x1000) bs) s else s
  else regSpan a bs s

/-! ### Whole accesses at the place that holds the bytes -/

/-- R92, R93, R100, R303: n bytes at a local address, read under key slot `k`. -/
def readLocal (s : State) (k a n : Nat) : List Byte :=
  let a := remapLocal s a
  match regionOf a with
  | .aperture => (List.range n).map (fun i => apertureByte s (a + i))
  | .slice => memRead s.mem a n
  | _ => (List.range n).map (fun i => readKeyed s k (a + i))

/-- R92, R93, R100, R303: write bytes at a local address through key slot `k`. -/
def writeLocal (k a : Nat) (bs : List Byte) (s : State) : State :=
  let a := remapLocal s a
  match regionOf a with
  | .aperture => apertureWrite a bs s
  | .slice => { s with
      mem := memWrite s.mem a bs
      health := { s.health with bad := s.health.bad.filter (fun b => !(decide (a ≤ b) && decide (b + 8 ≤ a + bs.length))) } }
  | .hole => s
  | _ => writeKeyed k a bs s

/-- R377: bytes of the protected unit that begins at a local address. -/
def protSize (b : Nat) : Nat := if encrypted b then 64 else 8

/-- R379: whether a span touches an uncorrectable protected unit. -/
def spanBad (s : State) (a n : Nat) : Bool :=
  let a := remapLocal s a
  s.health.bad.any (fun b => decide (b < a + n) && decide (a < b + protSize b))

/-- R21, R378: whether 16-byte unit `u` of a slice lies in row `row` of bank `b`: a row is 1 KiB of its bank. -/
def unitInRow (b row u : Nat) : Bool := u % 32 == b && u / 2048 == row

/-- R102: the channel of a local address of LPDDR6 under a table. -/
def channelOf (m : List Nat) (a : Nat) : Nat := m.getD ((a - 0x10000000000) / 4096 % 32) 0

/-- R25: the channel, or for bonded DRAM the stack, of a local address. -/
def memNumber (s : State) (a : Nat) : Nat := if regionOf a == .lpddr then channelOf s.tables.map a else (a - 0x4000000000) / 2 ^ 33

/-- R378: whether a span of DRAM touches a row of a channel or stack; which units a row holds is open. -/
def dramInRow (s : State) (x n number row : Nat) : Bool :=
  (unitsOf x n).any (fun u => memNumber s (u * 64) == number && Config.dramRow u == row)

/-- R378: whether a span of local addresses touches a row under test. Of instruction memory, control store and context banks the manual
holds back no access. -/
def rowTested (s : State) (a n : Nat) : Bool :=
  let x := remapLocal s a
  n != 0 && s.health.testing.any (fun e =>
    match e.1 with
    | .bank c b => regionOf x == .slice && sliceCid x == cidOf c &&
      (List.range ((x + n - 1) / 16 - x / 16 + 1)).any (fun i => unitInRow b e.2 ((x % 0x400000) / 16 + i))
    | .channel c => regionOf x == .lpddr && dramInRow s x n c e.2
    | .stack d => regionOf x == .dram && dramInRow s x n d e.2
    | .imem _ | .cstore _ | .contexts _ => false)

/-- R311: whether a span holds a register of a frozen Lodge: the traffic to it waits. -/
def lodgeWaits (s : State) (a n : Nat) : Bool :=
  s.handover.frozen && s.handover.role == 0 && (List.range (n / 8 + 2)).any (fun i => decide (a / 8 * 8 + 8 * i < a + n) && roleOf (a / 8 * 8 + 8 * i) == some 0)

/-- R311, R375, R378: whether a request to a span is held: a 4 KiB unit of it is in motion, a row of it under test, or a register of it the
Lodge's while that is frozen. -/
def inMotion (s : State) (a n : Nat) : Bool :=
  rowTested s a n || lodgeWaits s a n ||
  s.tables.moving.any (fun u => decide (u * 4096 < a + n) && decide (a < (u + 1) * 4096))

/-- R379: whether a write of a span reads uncorrectable data because it covers a bad unit only in part. -/
def partialBad (s : State) (a n : Nat) : Bool :=
  let a := remapLocal s a
  s.health.bad.any (fun b => decide (b < a + n) && decide (a < b + protSize b) && !(decide (a ≤ b) && decide (b + protSize b ≤ a + n)))

/-- R93: the local address of a home-window offset of the current core. -/
def homeAddr (s : State) (x : Nat) : Nat := sliceBase (cidOf s.lcn) + x

/-- R93: n bytes of the home window of core `n`. -/
def readHome (s : State) (n x len : Nat) : List Byte := readLocal s 0 (sliceBase (cidOf n) + x) len

/-- R93: write bytes of the home window of core `n`. -/
def writeHome (n x : Nat) (bs : List Byte) (s : State) : State := writeLocal 0 (sliceBase (cidOf n) + x) bs s

/-! ### Accesses of engines and firmware to another package (R26) -/

/-- R26, R375: an access that no instruction makes goes to another package, or to a unit in motion, for task `t` (0xFFFF_FFFF: firmware). It has no ordering class of
its own (16), and is a release where it ends a task (R61). -/
def remoteOp (t n order va : Nat) (rel : Bool) (p : Piece) (op : AccessOp) (ret : AccessReturn) (asid : Nat) (s : State) : State :=
  soon (.accessPerform s.nextId) { s with
    nextId := s.nextId + 1
    accesses := s.accesses ++ [{
      id := s.nextId, lcn := n, taskid := t, cls := 16, acq := false, rel := rel, va := va, pieces := [p], op := op, ret := ret
      latency := 0, performed := false, answered := false, data := [], flags := 0, failed := none, order := order, sent := none
      pod := rel, group := s.nextId, parts := [], asid := asid }] }

/-- R26: an update that no instruction makes and nothing waits for. -/
def remoteUpdate (t n order va : Nat) (rel : Bool) (p : Piece) (op : AccessOp) (asid : Nat) (s : State) : State :=
  remoteOp t n order va rel p op .none asid s

/-- R26, R375: firmware writes bytes at a device physical address; what is in motion or in another package takes them as an access. -/
def firmwareWrite (k pa : Nat) (bs : List Byte) (s : State) : State :=
  if pkgOf pa == pkgId s && !inMotion s (localOf pa) bs.length then writeLocal k (localOf pa) bs s
  else remoteUpdate 0xFFFFFFFF 0 0 pa false ⟨pa, bs.length, k⟩ (.store bs) 0 s

/-! ### Completion objects (R61, R103, R115, R116) -/

/-- R115: a sync word after n bytes have been counted into it. -/
def syncCount (w : List Byte) (n : Nat) : List Byte :=
  let target := leAt w 0 6
  let c := leAt w 8 6 + n
  if target != 0 && target ≤ c then
    toBytes 6 target ++ toBytes 2 ((leAt w 6 2 + c / target) % 65536) ++ toBytes 6 (c % target) ++
      toBytes 2 (if target < c then leAt w 14 2 ||| 1 else leAt w 14 2)
  else toBytes 6 target ++ toBytes 2 (leAt w 6 2) ++ toBytes 6 (min c (2 ^ 48 - 1)) ++ toBytes 2 (leAt w 14 2)

/-- R116: STATE[7] of a slot. -/
def slotArmed (w : List Byte) : Bool := bit (leAt w 15 1) 7

/-- R116: a barrier slot after k arrivals announcing tx bytes and d bytes delivered. -/
def slotUpdate (w : List Byte) (k : Nat) (tx : Int) (d : Nat) : List Byte :=
  let pend := toBits 32 ((leAt w 4 4 : Int) - k)
  let txb := toBits 48 (signExt (leAt w 8 6) 48 + tx - d)
  if pend == 0 && txb == 0 then
    w.take 4 ++ w.take 4 ++ toBytes 6 0 ++ toBytes 1 ((leAt w 14 1 + 1) % 256) ++ w.drop 15
  else w.take 4 ++ toBytes 4 pend ++ toBytes 6 txb ++ w.drop 14

/-- R116, R251: what BARS writes. -/
def slotArm (count : Nat) (scope : Nat) : List Byte :=
  toBytes 4 count ++ toBytes 4 count ++ toBytes 6 0 ++ toBytes 1 0 ++ toBytes 1 (0x80 + scope)

/-- R116, R251: what BARRT leaves. -/
def slotRetire (w : List Byte) : List Byte := w.take 15 ++ toBytes 1 (fld (leAt w 15 1) 0 7)

/-- R61: a join word after a TEXIT with status `st`. -/
def joinExit (w : List Byte) (st : Nat) : List Byte :=
  let fails := leAt w 8 4
  let f := leAt w 12 1
  toBytes 4 ((leAt w 0 4 + 1) % 2 ^ 32) ++ toBytes 4 (leAt w 4 4) ++
    (if st == 0 then toBytes 4 fails ++ w.drop 12
     else toBytes 4 ((fails + 1) % 2 ^ 32) ++
       (if f == 0xFF then toBytes 1 0xFE ++ toBytes 1 (leAt w 13 1) ++ toBytes 2 st else w.drop 12))

/-- R363: a join word after a child has ended with cause `c`. -/
def joinFail (w : List Byte) (c : Nat) : List Byte :=
  toBytes 4 ((leAt w 0 4 + 1) % 2 ^ 32) ++ toBytes 4 (leAt w 4 4) ++ toBytes 4 ((leAt w 8 4 + 1) % 2 ^ 32) ++
    (if leAt w 12 1 == 0xFF then toBytes 1 c ++ toBytes 1 (leAt w 13 1) ++ toBytes 2 0 else w.drop 12)

end Sys2Proof.Machine
end

