-- ==== Sys2Proof/Machine/Translate.lean ====
section
/-! DEFINITION. Translation (R93 to R101, R410) and the checks of R371; the arrival times of R219. -/

namespace Sys2Proof.Machine

/-- R99: the kinds of access that permissions distinguish. -/
inductive AccessKind where
  | read
  | write
  | atomic
  deriving DecidableEq, Repr

/-- R95, R371: a translated access, or the cause and detail with which it fails. -/
inductive Xlate where
  | ok (p : Piece)
  | fail (code : BitVec 8) (val : W64)
  deriving DecidableEq, Repr

/-- R98: an entry of the ASID table. -/
structure AsidEntry where
  root : Nat
  rtab : Nat
  keys : Nat
  en : Bool
  deriving DecidableEq, Repr

/-- Bytes of another package at a tick, as a table walk here reads them (R26). -/
def remoteBytes (tick pa n : Nat) : List Byte := (List.range n).map (fun i => Config.remoteMemory tick (pa + i))

/-- The bytes at a device physical address as they stand, whatever key they are under (assumption 17). -/
def readPlain (s : State) (pa n : Nat) : List Byte :=
  let a := localOf pa
  if pkgOf pa != pkgId s then remoteBytes (tickNow s) pa n
  else if regionOf a == .aperture then readLocal s 0 a n else memRead s.mem (remapLocal s a) n

/-- The bytes at a device physical address, read under key slot `k`; another package's are those of a tick. -/
def readDevice (s : State) (tick k pa n : Nat) : List Byte :=
  if pkgOf pa == pkgId s then readLocal s k (localOf pa) n else remoteBytes tick pa n

/-- R379: whether a span at a device physical address of this package touches uncorrectable data. -/
def deviceBad (s : State) (pa n : Nat) : Bool := pkgOf pa == pkgId s && spanBad s (localOf pa) n

/-- R382, R387: whether a station is in service. -/
def stationServes (s : State) (k : Nat) : Bool := ((s.links.find? (fun e => e.1 == k)).map (fun e => e.2.inService)).getD true

/-- R26, R27, R382: the cause, with its detail, with which a table read of another package fails for the access at `va`: no station reaches the
package, or the address is a hole there. -/
def tableGone (s : State) (pa n va : Nat) : Option (Nat × Nat) :=
  if pkgOf pa == pkgId s then none
  else if !Config.inPod (pkgOf pa) || !(List.range 8).any (stationServes s) then some (0xA0, pkgOf pa)
  else if regionOf (localOf pa) == .hole || regionOf (localOf (pa + n - 1)) != regionOf (localOf pa) then some (0xA2, va)
  else none

/-- R98: ASIDBASE. -/
def asidBase (s : State) : Nat := fld (regRaw s 0x3000000) 19 37 * 2 ^ 19

/-- R98, R410: the ASID table's entry; with ASIDBASE 0 no ASID is enabled. -/
def asidEntry (s : State) (a : Nat) : AsidEntry :=
  if asidBase s == 0 then ⟨0, 0, 0, false⟩
  else
    let b := readPlain s (asidBase s + 32 * a) 32
    ⟨fld (leAt b 0 8) 21 35 * 2 ^ 21, fld (leAt b 8 8) 10 46 * 2 ^ 10, leAt b 16 8, bit (leAt b 24 8) 0⟩

/-- R98: the key slot of key index `k`. -/
def AsidEntry.key (e : AsidEntry) (k : Nat) : Nat := fld e.keys (12 * k) 12
/-- R98: whether key index `k` may be used. -/
def AsidEntry.keyOn (e : AsidEntry) (k : Nat) : Bool := bit e.keys (48 + k)

/-- R96: a range-table entry as the core keeps it. -/
def parseRange (b : List Byte) : RangeEntry :=
  let w0 := leAt b 0 8
  let w1 := leAt b 8 8
  { valid := bit w0 0, rd := bit w0 1, wr := bit w0 2, amok := bit w0 3, kidx := fld w0 4 2, base := fld w0 6 51 * 64,
    sup := bit w1 0, limit := fld w1 6 51 * 64, offset := BitVec.ofNat 64 (leAt b 16 8) }

/-- R371: a valid entry that is malformed. -/
def rangeMalformed (b : List Byte) : Bool :=
  let w0 := leAt b 0 8
  let w1 := leAt b 8 8
  bit w0 0 && (decide ((parseRange b).limit ≤ (parseRange b).base) || fld w0 57 7 != 0 || fld w1 1 5 != 0 || fld w1 57 7 != 0 ||
    fld (leAt b 16 8) 0 6 != 0 || leAt b 24 8 != 0)

/-- R101, R410: the range-table copy of an ASID, and the indices of malformed entries, which count as invalid. R97 names a key
for the page tables only, so the table's bytes are read as they stand (assumption 17). -/
def readRanges (s : State) (asid : Nat) : List RangeEntry × List Nat :=
  let e := asidEntry s asid
  if e.rtab == 0 then ([], [])
  else
    let b := readPlain s e.rtab 1024
    let es := (List.range 32).map (fun i => (b.drop (32 * i)).take 32)
    (es.map (fun x => { parseRange x with valid := bit (leAt x 0 8) 0 && !rangeMalformed x }),
      (List.range 32).filter (fun i => rangeMalformed (es.getD i [])))

/-- What a range entry or leaf grants and where it leads. -/
structure Mapping where
  rd : Bool
  wr : Bool
  amok : Bool
  sup : Bool
  kidx : Nat
  pa : Nat
  deriving DecidableEq, Repr

/-- R97, R379, R382, R390: how a walk ends: a leaf, no mapping, a malformed entry at an address, uncorrectable data, or a table read that
fails with a cause and its detail. -/
inductive Walk where
  | leaf (l : Leaf)
  | noMap
  | malformed (entry : Nat)
  | lost
  | gone (code val : Nat)
  deriving DecidableEq, Repr

/-- R390: whether a read of a table at a device physical address under key slot `k` would use an erased key. -/
def tableErased (s : State) (pa k : Nat) : Bool :=
  pkgOf pa == pkgId s && encrypted (localOf pa) && !(keySlotAt s k).installed && (keySlotAt s k).gen != 0

/-- R97: the shift and width of the index of a level. -/
def levelShift : Nat → Nat
  | 4 => 39
  | 3 => 30
  | 2 => 21
  | _ => 12

/-- R101: the state as the page walks of a context see it: memory as its last table read or TLBIR left it. -/
def viewed (s : State) (v : TableView) : State := { s with mem := v.mem, unitKey := v.keys }

/-- R97, R101: walk from a table of level `l`; `t` is the tick of the view. -/
def walkFrom (s : State) (asid key va t : Nat) : Nat → Nat → Walk
  | 0, _ => .noMap
  | l + 1, table =>
    let lv := l + 1
    let idx := fld va (levelShift lv) (if lv == 4 then 18 else 9)
    let ea := table + 8 * idx
    let e := fromBytes (readDevice s t key ea 8)
    let leaf := lv == 1 || bit e 1
    let addr := fld e 12 44 * 4096
    if deviceBad s ea 8 then .lost
    else if tableErased s ea key then .gone 0xB1 key
    else if (tableGone s ea 8 va).isSome then .gone ((tableGone s ea 8 va).getD (0, 0)).1 ((tableGone s ea 8 va).getD (0, 0)).2
    else if !bit e 0 then .noMap
    else if fld e 8 4 != 0 || fld e 56 8 != 0 then .malformed ea
    else if leaf then
      if lv == 4 || addr % 2 ^ levelShift lv != 0 then .malformed ea
      else .leaf ⟨asid, va / 2 ^ levelShift lv * 2 ^ levelShift lv, 2 ^ levelShift lv, addr, bit e 2, bit e 3, bit e 4, fld e 5 2, bit e 7⟩
    else walkFrom s asid key va t l addr

/-- R97, R101: the leaf that maps an address for context `c` on core `n`: the core's cached one, or what a walk finds. -/
def findLeaf (s : State) (n : Nat) (c : Context) (va : Nat) : Walk :=
  match (coreAt s n).leaves.find? (fun l => l.asid == c.asid && decide (l.page ≤ va) && decide (va < l.page + l.size)) with
  | some l => .leaf l
  | none =>
    let e := asidEntry s c.asid
    if e.root == 0 then .noMap else walkFrom (viewed s c.tables) c.asid (e.key 0) va c.tables.tick 4 e.root

/-- R95: whether bytes that no one range entry maps fall in the home window or in a range in part. -/
def straddles (c : Context) (va n : Nat) : Bool :=
  decide (va < 0x400000) || c.ranges.any (fun r => r.valid && decide (r.base < va + n) && decide (va < r.limit))

/-- The lowest code of a list of causes that apply (R342, R371). -/
def lowest : List (Nat × Nat) → Option (Nat × Nat)
  | [] => none
  | x :: r => match lowest r with
    | none => some x
    | some y => some (if x.1 ≤ y.1 then x else y)

/-- R371: the causes a mapped access meets. -/
def mappingCauses (s : State) (c : Context) (k : AccessKind) (va len : Nat) (m : Mapping) : List (Nat × Nat) :=
  let perm := match k with
    | .read => if m.rd then [] else [(0x62, va)]
    | .write => if m.wr then [] else [(0x63, va)]
    | .atomic => if m.rd && m.wr && m.amok then [] else [(0x64, va)]
  let own := pkgOf m.pa == pkgId s
  let r := regionOf (localOf m.pa)
  let window := decide (localOf m.pa < 0x68000000) && decide (0x40000000 < localOf m.pa + len)
  let hole := own && (r == .hole || regionOf (localOf (m.pa + len - 1)) != r)
  let keyed := !own || r == .dram || r == .lpddr
  perm ++ (if m.sup && !c.priv || window && !m.sup then [(0x65, va)] else []) ++ (if hole then [(0x68, va)] else []) ++
    (if keyed && !(asidEntry s c.asid).keyOn m.kidx then [(0x6A, va)] else [])

/-- The piece a mapping gives. -/
def pieceOf (s : State) (c : Context) (len : Nat) (m : Mapping) : Piece := ⟨m.pa, len, (asidEntry s c.asid).key m.kidx⟩

/-- R94, R95, R371: translate an access of `len` bytes at the 64-bit address operand `va`, aligned to `al`, made by context
`c` on core `n`; an empty one is checked as one byte (R372). -/
def translate (s : State) (n : Nat) (c : Context) (va64 len : Nat) (k : AccessKind) (al : Nat) : Xlate :=
  let va := va64 % 2 ^ 57
  let ln := max len 1
  let mis := if len != 0 && va % al != 0 then [(0x67, va64)] else []
  let top := if va64 / 2 ^ 57 != 0 then [(0x60, va64)] else []
  let done (cs : List (Nat × Nat)) (p : Piece) : Xlate :=
    match lowest cs with
    | some e => .fail (BitVec.ofNat 8 e.1) (BitVec.ofNat 64 e.2)
    | none => .ok p
  if va + ln ≤ 0x400000 then done (top ++ mis) ⟨pkgId s * 2 ^ 46 + sliceBase (cidOf n) + va, len, 0⟩
  else
    match c.ranges.find? (fun r => r.valid && decide (r.base ≤ va) && decide (va + ln ≤ r.limit)) with
    | some r =>
      let m : Mapping := ⟨r.rd, r.wr, r.amok, r.sup, r.kidx, (va + r.offset.toNat) % 2 ^ 56⟩
      done (top ++ mis ++ mappingCauses s c k va64 ln m) (pieceOf s c len m)
    | none =>
      if straddles c va ln then done (top ++ mis ++ [(0x66, va64)]) ⟨0, len, 0⟩
      else
        match findLeaf s n c va with
        | .noMap => done (top ++ mis ++ [(0x61, va64)]) ⟨0, len, 0⟩
        | .malformed e => done (top ++ mis ++ [(0x69, e)]) ⟨0, len, 0⟩
        | .lost => done (top ++ mis ++ [(0x6B, va64)]) ⟨0, len, 0⟩
        | .gone e v => done (top ++ mis ++ [(e, v)]) ⟨0, len, 0⟩
        | .leaf l =>
          let m : Mapping := ⟨l.rd, l.wr, l.amok, l.sup, l.kidx, l.target + (va - l.page)⟩
          let cross := if va + ln ≤ l.page + l.size then [] else [(0x66, va64)]
          done (top ++ mis ++ cross ++ mappingCauses s c k va64 ln m) (pieceOf s c len m)

/-- R101: the core keeps the leaf that an access used. -/
def keepLeaf (n : Nat) (c : Context) (va : Nat) (s : State) : State :=
  if va < 0x400000 then s
  else
    match findLeaf s n c va with
    | .leaf l => modCoreAt n (fun d => if d.leaves.contains l then d else { d with leaves := d.leaves ++ [l] }) s
    | _ => s

/-- R93: whether an access of `len` bytes is one to the home window. -/
def isHome (va len : Nat) : Bool := decide (va % 2 ^ 57 + max len 1 ≤ 0x400000)

/-- R219: uncontended arrival time in ticks of an access by core `n` to a device physical address. DESIGN CHOICE (assumption 70): the core's own
slice, reached through a translated mapping, has no column and takes the 24 ticks of another slice of the quad. -/
def arrivalTicks (s : State) (n pa : Nat) : Nat :=
  if pkgOf pa != pkgId s then 1200
  else
    let a := remapLocal s (localOf pa)
    match regionOf a with
    | .slice =>
      let m := lcnOf (sliceCid a)
      if m == n || quadOf m == quadOf n then 24 else if dieOf m == dieOf n then 48 else 160
    | .dram => if (a - 0x4000000000) / 2 ^ 33 == dieOf n then 120 else 220
    | .lpddr => 320
    | _ =>
      let d := dieOf n
      let near :=
        (0x1000000 ≤ a && a < 0x1120000 && dieOfQuad ((a - 0x1000000) / 0x1000) == d && (a - 0x1000000) / 0x1000 == quadOf n) ||
        (0x2000000 ≤ a && a < 0x2008000 && (a - 0x2000000) / 0x1000 == d) ||
        (0x40000000 ≤ a && a < 0x60000000 && (a - 0x40000000) / 0x40000 / 256 == d) ||
        (0x60000000 ≤ a && a < 0x68000000 && (a - 0x60000000) / 0x10000 / 256 == d)
      if near then 64 else 240

end Sys2Proof.Machine
end

