-- ==== Sys2Proof/Machine/Records.lean ====
section
/-! DEFINITION. Error records and their rings (R367 to R370) and notify words (R300). -/

namespace Sys2Proof.Machine

/-- R367: the 64 bytes of a record; a platform copy has TVAL and ADDR zero (R369). -/
def Rec.bytes (r : Rec) (seq tick : Nat) (blank : Bool) : List Byte :=
  toBytes 8 seq ++ toBytes 8 tick ++ toBytes 1 r.area ++ toBytes 1 r.cause ++ toBytes 2 r.event ++ toBytes 4 r.taskid ++
    toBytes 2 (match r.asid with | some a => a | none => 0x8000) ++ toBytes 2 (r.cid.getD 0x7FF) ++ toBytes 2 r.flags ++
    toBytes 2 (r.ifc.getD 0xFFFF) ++ toBytes 4 r.pc ++ toBytes 4 0 ++ toBytes 8 (if blank then 0 else r.tval) ++
    toBytes 8 (if blank then 0 else r.addr) ++ toBytes 8 r.aux

/-- R369: address of ERRBASE of ring `r`; ERRPTR lies 8 bytes above. -/
def errBaseAddr (r : Nat) : Nat := 0x2600000 + r * 0x20

/-- R369: place a record in ring `r`, or count it as lost. -/
def putRing (r : Nat) (bs : List Byte) (s : State) : State :=
  let base := regRaw s (errBaseAddr r)
  let p := regRaw s (errBaseAddr r + 8)
  let n := fld base 0 5
  let head := fld p 0 16
  let tail := fld p 16 16
  if n < 6 || 15 < n || toBits 16 ((head : Int) - tail) == 2 ^ n then
    setReg (errBaseAddr r + 8) (putFld p 32 16 (min 0xFFFF (fld p 32 16 + 1))) s
  else
    let a := fld base 12 44 * 0x1000 + 64 * (head % 2 ^ n)
    setReg (errBaseAddr r + 8) (putFld p 0 16 (head + 1)) (firmwareWrite 0 a bs s)

/-- R370: the source of a record: of memory the controllers, but for what a core or the host port meets there. -/
def Rec.source (r : Rec) : Nat × Nat :=
  let core := match r.cid with
    | some c => some (lcnOf c)
    | none => r.reporter
  if r.area == 0 then (2, core.getD 0)
  else if r.area == 1 then
    if r.event == 0x0106 then (3, 0) else if r.event == 0x0105 || r.event == 0 then (2, core.getD 0) else (0, 0)
  else if r.area == 2 then (1, 0)
  else if r.area == 5 then (3, 0)
  else (4, 0)

/-- R370: a report behind those of its tick whose source does not come after its own. -/
def addReport (p : Report) : List Report → List Report
  | [] => [p]
  | q :: r => if p.source.1 < q.source.1 || (p.source.1 == q.source.1 && decide (p.source.2 < q.source.2)) then p :: q :: r else q :: addReport p r

/-- R367, R370: an error record is reported to the Lodge. -/
def record (r : Rec) (s : State) : State := { s with reports := addReport ⟨r.source, tickNow s, .record r⟩ s.reports }

/-- R368: a host write is refused: event 0x0106 with its CXL tag. -/
def writeRefused (tag a : Nat) (s : State) : State := record { area := 1, event := 0x0106, tval := tag, addr := a } s

/-- R368, R379: a host read is refused: event 0x0106, and error status. -/
def hostRefused (tag a : Nat) (s : State) : State := writeRefused tag a { s with answers := s.answers ++ [⟨tag, none⟩] }

/-- R307: the interface whose quads include the quad of a core. -/
def ifcOfQuad (s : State) (q : Nat) : Option Nat := (s.interfaces.find? (fun e => e.2.quads.contains q)).map Prod.fst

/-- R367, R358: the record of a context of core `n`. -/
def contextRec (s : State) (n : Nat) (c : Context) (cause k : Nat) (defer ended : Bool) (tval addr : Nat) : Rec :=
  { area := 0, cause := cause, taskid := c.tid, asid := some c.asid, cid := some (cidOf n)
    flags := k + b2n defer * 4 + b2n c.micro * 8 + b2n ended * 16, ifc := ifcOfQuad s (quadOf n)
    pc := c.here, tval := tval, addr := addr }

/-- R300: the 32 bytes of a notify word. -/
def notifyBytes (seq src kind info : Nat) (value : Int) (tick aux : Nat) : List Byte :=
  toBytes 8 seq ++ toBytes 2 src ++ toBytes 1 kind ++ toBytes 1 info ++ toBytes 4 (toBits 32 value) ++ toBytes 8 tick ++ toBytes 8 aux

/-- R300, R370: an event for a notify word at a device physical address, written through key slot `k`, is reported to the Lodge. -/
def notifyAt (k pa src kind info : Nat) (value : Int) (aux : Nat) (s : State) : State :=
  { s with reports := addReport ⟨(4, 0), tickNow s, .notify k pa src kind info value aux⟩ s.reports }

/-- R300, R367, R369, R370: a report draws the next sequence number and is written: a record about a
context into the ring of its interface too, an event at its word. -/
def writeReport (p : Report) (s : State) : State :=
  let s := { s with seq := s.seq + 1 }
  let seq := s.seq.toNat
  match p.body with
  | .record r =>
    match (if r.taskid == 0xFFFFFFFF then none else r.ifc) with
    | some i => putRing 64 (r.bytes seq p.tick true) (putRing i (r.bytes seq p.tick false) s)
    | none => putRing 64 (r.bytes seq p.tick false) s
  | .notify k pa src kind info value aux => firmwareWrite k pa (notifyBytes seq src kind info value p.tick aux) s

/-- R370: the reports of a tick are numbered and written, in the order of their sources. -/
def numberReports (s : State) : State := s.reports.foldl (fun s p => writeReport p s) { s with reports := [] }

/-- R187, R300: an event written to the notify word a subscription of context `c` on core `n` names; a word that the
context's translation does not let be written takes no event (assumption 18). -/
def notifySub (n : Nat) (c : Context) (word : W64) (src kind info : Nat) (value : Int) (aux : Nat) (s : State) : State :=
  match translate s n c word.toNat 32 .write 32 with
  | .ok p => notifyAt p.key p.pa src kind info value aux s
  | .fail _ _ => s

/-- R299: the number of the sensor of firmware events. -/
def firmwareSensor : Nat := 0xF00

/-- R187, R300: a firmware, migration or lease event written to every subscription of context `c` to sensor 0x0F00. -/
def notifyFirmwareSubs (n : Nat) (c : Context) (src kind info : Nat) (value : Int) (aux : Nat) (s : State) : State :=
  c.psub.foldl (fun s p =>
    match p with
    | some b => if b.sensor == firmwareSensor then notifySub n c b.word src kind info value aux s else s
    | none => s) s

/-- R313: every live context with the core on which its home window lies: active and shadow banks, and saved contexts with the
quad's first core (assumption 18). -/
def liveContexts (s : State) : List (Nat × Context) :=
  (allCores s).flatMap (fun e =>
    (if e.2.act.task.isSome then [(e.1, e.2.act)] else []) ++
      (if e.2.shadow != .free && e.2.shd.task.isSome then [(e.1, e.2.shd)] else [])) ++
  s.kiosks.flatMap (fun k => k.2.entries.filterMap (fun e => e.saved.map (fun p => (k.1 * 4, p.1))))

/-- R313, R314: a kind-1 event to the interface notify word of every interface in RUN and to every subscription to firmware
events. -/
def notifyHandover (role info version aux : Nat) (s : State) : State :=
  let s := s.interfaces.foldl (fun s e =>
    let r := regRaw s (0x2500200 + 8 * e.1)
    if e.2.st == .run && bit r 0 then notifyAt 0 (fld r 5 51 * 32) role 1 info version aux s else s) s
  (liveContexts s).foldl (fun s e => notifyFirmwareSubs e.1 e.2 role 1 info version aux s) s

end Sys2Proof.Machine
end

