-- ==== Sys2Proof/Machine/Access.lean ====
section
/-! DEFINITION. Accesses to memory: what each does where its bytes are held (R103, R104, R246, R380), the order in which the
accesses of one context perform (R107 to R110, R218, R248), watermark stalls (R53, R114), and answers (R219, R382). -/

namespace Sys2Proof.Machine

/-! ### At the memory that holds the bytes -/

/-- R246: the new value of an atomic on z bytes, and the flags of FADD32. -/
def atomicNew (op : AtomicOp) (z old b : Nat) : Nat × Nat :=
  let so := signExt old (8 * z)
  let sb := signExt b (8 * z)
  let m := 2 ^ (8 * z)
  match op with
  | .add => ((old + b) % m, 0)
  | .and => (old &&& b, 0)
  | .or => (old ||| b, 0)
  | .xor => (old ^^^ b, 0)
  | .min => (if so ≤ sb then old else b, 0)
  | .max => (if sb ≤ so then old else b, 0)
  | .minu => (min old b, 0)
  | .maxu => (max old b, 0)
  | .swap => (b, 0)
  | .fadd32 => fp32.addNum (fp32.decode old) (fp32.decode b)
  | .cas c => (if old == c.toNat % m then b else old, 0)

/-- The bytes of the pieces of an access, in order. -/
def readPieces (s : State) : List Piece → List Byte
  | [] => []
  | p :: ps => readLocal s p.key (localOf p.pa) p.len ++ readPieces s ps

/-- Write bytes into the pieces of an access, in order; of bytes written twice the later stands (R218). -/
def writePieces : List Piece → List Byte → State → State
  | [], _, s => s
  | p :: ps, bs, s => writePieces ps (bs.drop p.len) (writeLocal p.key (localOf p.pa) (bs.take p.len) s)

/-- What an access returns or leaves. -/
structure Effect where
  data : List Byte
  flags : Nat
  failed : Option (BitVec 8 × W64)
  deriving DecidableEq, Repr

/-- R99: whether an operation consumes the bytes it reads (R379). -/
def AccessOp.reads : AccessOp → Bool
  | .store _ | .arm _ _ => false
  | _ => true

/-! ### Barrier networks (R63 to R66) -/

/-- R63: the counts of an identifier. -/
def barrierAt (s : State) (z : Scope) (place id : Nat) : Barrier :=
  (s.barriers.find? (fun b => b.scope == z && b.place == place && b.id == id)).getD ⟨z, place, id, 0, 0, 0, 0, 0, 0⟩

/-- R63: replace the counts of an identifier. -/
def putBarrier (b : Barrier) (s : State) : State :=
  { s with barriers := b :: s.barriers.filter (fun x => !(x.scope == b.scope && x.place == b.place && x.id == b.id)) }

/-- R65: the longest time from the last arrival to the release. -/
def releaseBound (z : Scope) : Nat :=
  match z with
  | .quad => 8
  | .die => 48
  | .pkg => 160
  | _ => 2400

/-- R66: an identifier as it stands in a tick: what came in an earlier one is no longer fresh. -/
def Barrier.inTick (t : Nat) (b : Barrier) : Barrier := if b.tick == t then b else { b with tick := t, fresh := 0, begun := 0 }

/-- R63, R65: one arrival; the last one starts the release. -/
def arriveAt (z : Scope) (place id parts : Nat) (s : State) : State :=
  let b := (barrierAt s z place id).inTick (tickNow s)
  if parts ≤ b.count + 1 then
    within (releaseBound z) (.barrierRelease z place id)
      (putBarrier { b with count := 0, releasing := b.releasing + 1, fresh := b.fresh + 1, begun := b.begun + 1 } s)
  else putBarrier { b with count := b.count + 1, fresh := b.fresh + 1 } s

/-- R64: the BARCFG of an identifier of the network of a scope in a place. -/
def barcfgAt (z : Scope) (place id : Nat) : Nat :=
  match z with
  | .quad => 0x1000100 + place * 0x1000 + 8 * id
  | .die => 0x2000100 + place * 0x1000 + 8 * id
  | .pkg => 0x2100100 + 8 * id
  | _ => 0x2101100 + 8 * id

/-- R64: whether another module counts a POD identifier: one with a lower package identifier in which it is enabled. -/
def countedElsewhere (s : State) (z : Scope) (id : Nat) : Bool :=
  z == .pod && (List.range (pkgId s)).any (fun p => Config.podEnabled p id (tickNow s))

/-- R64: an arrival is counted here, or forwarded to the module that counts. -/
def barrierCount (z : Scope) (place id : Nat) (s : State) : State :=
  let cfg := regRaw s (barcfgAt z place id)
  if countedElsewhere s z id || !bit cfg 35 || fld cfg 0 21 == 0 then s else arriveAt z place id (fld cfg 0 21) s

/-- R103, R104, R116, R246, R251, R380: an operation performs on pieces in this module. `va` is the address reported. -/
def performOp (op : AccessOp) (ps : List Piece) (va : Nat) (s : State) : Effect × State :=
  let p0 := ps.headD ⟨0, 0, 0⟩
  let bad := ps.any (fun p => if op.reads then spanBad s (localOf p.pa) p.len else partialBad s (localOf p.pa) p.len)
  if bad then (⟨[], 0, some (0x6B, BitVec.ofNat 64 va)⟩, s)
  else
    match op with
    | .load => (⟨readPieces s ps, 0, none⟩, s)
    | .store bs => (⟨[], 0, none⟩, writePieces ps bs s)
    | .atomic o b =>
      let old := readPieces s ps
      let z := p0.len
      let r := atomicNew o z (fromBytes old) (fld b.toNat 0 (8 * z))
      (⟨old, r.2, none⟩, writePieces ps (toBytes z r.1) s)
    | .arrive tx =>
      let w := readPieces s ps
      if !slotArmed w then (⟨w, 0, some (0x84, BitVec.ofNat 64 va)⟩, s)
      else if leAt w 4 4 == 0 then (⟨w, 0, some (0x85, BitVec.ofNat 64 va)⟩, s)
      else (⟨w, 0, none⟩, writePieces ps (slotUpdate w 1 tx 0) s)
    | .arm n sc => (⟨[], 0, none⟩, writePieces ps (slotArm n sc) s)
    | .retire => (⟨[], 0, none⟩, writePieces ps (slotRetire (readPieces s ps)) s)
    | .joinEnd st => (⟨[], 0, none⟩, writePieces ps (joinExit (readPieces s ps) st) s)
    | .joinFail c => (⟨[], 0, none⟩, writePieces ps (joinFail (readPieces s ps) c) s)
    | .syncCount n => (⟨[], 0, none⟩, writePieces ps (syncCount (readPieces s ps) n) s)
    | .slotCount n =>
      let w := readPieces s ps
      if slotArmed w then (⟨[], 0, none⟩, writePieces ps (slotUpdate w 0 0 n) s)
      else (⟨[], 0, some (0x84, BitVec.ofNat 64 va)⟩, s)
    | .barrier z pl id => (⟨[], 0, none⟩, barrierCount z pl id s)

/-- R374: an operation of request number `id` performs, under the version of the tables that the request carries. -/
def performSent (id : Nat) (op : AccessOp) (ps : List Piece) (va : Nat) (s : State) : Effect × State :=
  let r := performOp op ps va (asSent id s)
  (r.1, { r.2 with remaps := s.remaps })

/-! ### Order (R107, R109, R110, R218, R248) -/

/-- R303: a piece at the place that holds its bytes. -/
def Piece.real (s : State) (p : Piece) : Piece :=
  if pkgOf p.pa == pkgId s then { p with pa := p.pa / 2 ^ 46 * 2 ^ 46 + remapLocal s (localOf p.pa) } else p

/-- Whether two pieces share a byte. -/
def Piece.meets (p q : Piece) : Bool := decide (p.pa < q.pa + q.len) && decide (q.pa < p.pa + p.len)

/-- R107, R110 case 1: whether the earlier access x of a context performs before the later access y. -/
def mustPrecede (s : State) (x y : Access) : Bool :=
  x.cls == y.cls || x.acq || y.rel || x.pieces.any (fun p => y.pieces.any (fun q => (p.real s).meets (q.real s)))

/-- The accesses of a task that have not performed. -/
def pendingOf (s : State) (t : Nat) : List Access := s.accesses.filter (fun a => a.taskid == t && !a.performed)

/-- R248, R284: whether an access has not performed at the scope of a FENCE. -/
def Hold.waitsOn (h : Hold) (a : Access) : Bool :=
  h.waits.contains a.id && (!a.performed || (h.pod && a.sent.isSome && !a.answered))

/-- R107, R248: whether a FENCE of a context still holds back access `id` of a class: one that follows the FENCE, so none of those
it waits for. -/
def held (s : State) (t : Nat) (hs : List Hold) (cls id : Nat) : Bool :=
  hs.any (fun h => bit h.mask.toNat cls && !h.waits.contains id && s.accesses.any (fun a => a.taskid == t && h.waitsOn a))

/-- R387, R391: whether task `t` has lost an access to a station that was taken out of service; its context ends with 0xA3. -/
def stationLost (s : State) (t : Nat) : Bool :=
  s.accesses.any (fun x => x.taskid == t && x.failed.any (fun f => f.1 == 0xA3)) ||
    (ctxOf s t).any (fun c => c.deferred.any (fun d => d.code == 0xA3) || c.ending.any (fun e => e.code == 0xA3))

/-- R284, R391: whether an access of a task to another package that is earlier than number `id` has not been acknowledged, or never will
be. -/
def unackedBefore (s : State) (t id : Nat) : Bool :=
  s.accesses.any (fun x => x.taskid == t && decide (x.id < id) && x.sent.isSome && !x.answered) || stationLost s t

/-- R106, R116, R284: whether an access is a release at POD scope; BARA's has the scope of its slot. DEDUCED (assumption 62): a slot in another
package has POD scope. -/
def Access.podRelease (s : State) (a : Access) : Bool :=
  a.rel && (a.pod || (match a.op with
    | .arrive _ => a.pieces.any (fun p => pkgOf p.pa != pkgId s || fld (leAt (readLocal s p.key (localOf p.pa) 16) 15 1) 0 3 == 5)
    | _ => false))

/-- R118: whether host entries that task `t` claimed before its access number `id` have not performed. -/
def claimPending (s : State) (t id : Nat) : Bool :=
  s.ingress.any (fun g => g.2.entries.any (fun e => e.claimed.any (fun m => m.1 == t && decide (m.2 ≤ id))))

/-- R107, R118, R284: whether access `a` may perform now: every access and claimed host entry that must precede it has performed, and before
a release at POD scope those to other packages have been acknowledged. -/
def mayPerform (s : State) (hs : List Hold) (a : Access) : Bool :=
  !held s a.taskid hs a.cls a.id && !claimPending s a.taskid a.id &&
    (pendingOf s a.taskid).all (fun x => !(decide (x.id < a.id) && x.group != a.group && mustPrecede s x a)) &&
    !(a.podRelease s && unackedBefore s a.taskid a.id)

/-- The fences in force for a task. -/
def holdsOf (s : State) (t : Nat) : List Hold := ((ctxOf s t).map Context.holds).getD []

/-- R118, R180, R250: whether every access of a task, and every host entry that it has claimed, has performed. -/
def allPerformed (s : State) (t : Nat) : Bool := (pendingOf s t).isEmpty && !claimPending s t s.nextId

/-! ### Making an access -/

/-- R219: ticks from issue to perform, and from perform to answer, of an access by core `n`. DESIGN CHOICE (assumption 70): an access whose pieces
lie in several memories performs all of them at half the figure of the farthest one. -/
def halves (s : State) (n : Nat) (ps : List Piece) : Nat × Nat :=
  let t := ps.foldl (fun m p => max m (arrivalTicks s n p.pa)) 0
  ((t + 1) / 2, t / 2)

/-- An access of the current core's active context. -/
def mkAccess (s : State) (cls : Nat) (acq rel : Bool) (va : Nat) (ps : List Piece) (op : AccessOp) (ret : AccessReturn)
    (lat : Nat) : Access :=
  ⟨s.nextId, s.lcn, s.core.act.tid, cls, acq, rel, va, ps, op, ret, lat, false, false, [], 0, none, s.core.act.order, none,
    false, s.nextId, [], s.core.act.asid⟩

/-- R285: bytes an access counts against the cap of its peer. -/
def Access.load (a : Access) : Nat := a.pieces.foldl (fun m p => m + p.len) 0

/-- R26: the package an access goes to. -/
def Access.pkg (a : Access) : Nat := pkgOf ((a.pieces.headD ⟨0, 0, 0⟩).pa)

/-- R284: the station by which a device physical address of a package is reached. -/
def stationOf (pkg pa : Nat) : Nat := Nat.xor (fld (localOf pa) 12 3) (fld pkg 0 3)

/-- R26, R284: where a piece goes: memory of this package, or another package by one of its stations. -/
def Piece.route (s : State) (p : Piece) : Option (Nat × Nat) :=
  if pkgOf p.pa == pkgId s then none else some (pkgOf p.pa, stationOf (pkgOf p.pa) p.pa)

/-- The bytes of a store that go to the pieces with given places. -/
def partBytes (ps : List Piece) (bs : List Byte) (l : List Nat) : List Byte :=
  l.flatMap (fun i => (bs.drop ((ps.take i).map Piece.len).sum).take (ps.getD i ⟨0, 0, 0⟩).len)

/-- The part of an access that goes by one route, number `k`. -/
def Access.part (a : Access) (l : List Nat) (k : Nat) : Access :=
  { a with
    id := a.id + k
    pieces := l.map (fun i => a.pieces.getD i ⟨0, 0, 0⟩)
    op := match a.op with
      | .store bs => .store (partBytes a.pieces bs l)
      | o => o
    parts := l }

/-- R26, R284: an access outside the home window as what goes by each route. -/
def Access.split (s : State) (a : Access) : List Access :=
  let rs := (a.pieces.map (Piece.route s)).eraseDups
  if rs.length ≤ 1 then [a]
  else (List.range rs.length).map (fun k =>
    a.part ((List.range a.pieces.length).filter (fun i => (a.pieces[i]?).map (Piece.route s) == rs[k]?)) k)

/-- R219, R285: part of an access leaves at a time: it performs after half its arrival time; one to another package goes to its
station first. -/
def sendPart (t : Nat) (a : Access) (s : State) : State :=
  let d := if a.pkg == pkgId s then (halves s a.lcn a.pieces).1 else 0
  atTime (t + d * Config.unitsPerTick) (.accessPerform a.id) { s with accesses := s.accesses ++ [a], nextId := s.nextId + 1 }

/-- R219, R284, R285: send an access outside the home window at a time. -/
def sendFrom (t : Nat) (a : Access) (s : State) : State := (a.split s).foldl (fun s x => sendPart t x s) s

/-- R219, R284, R285: send an access outside the home window. -/
def sendAccess (a : Access) (s : State) : State := sendFrom s.time a s

/-- R93, R107: an access to the home window performs at once unless one that must precede it has not performed; then it waits.
`lat` is its latency in cycles; the answer is the effect when it performed at once. -/
def homeAccess (a : Access) (s : State) : Option Effect × State :=
  if mayPerform s s.core.act.holds a then
    let r := performOp a.op a.pieces a.va s
    (some r.1, r.2)
  else
    (none, soon (.accessPerform a.id) { s with accesses := s.accesses ++ [a], nextId := s.nextId + 1 })

/-! ### Watermarks and claimed host bytes -/

/-- R114: whether a byte range of the home window stalls on a watermark. -/
def Watermark.stalls (w : Watermark) (lo hi : Nat) : Bool :=
  w.bound && decide (max (max lo (w.mark * 16)) (w.base * 16) < min hi (w.limit * 16))

/-- R53, R57: the scratchpad ranges that a preload fills: those of the list, or the footprint of a saved context. -/
def Preload.spans (p : Preload) : List (Nat × Nat) :=
  let l := p.entry.task.plist
  if p.entry.saved.isSome then [(l.fplo, l.fphi - l.fplo)] else l.ranges.map (fun r => r.2)

/-- R53: whether a byte range stalls on a scratchpad range that the preload has not filled. -/
def Preload.stalls (lo hi : Nat) (p : Preload) : Bool :=
  (List.range p.spans.length).any (fun i =>
    let r := p.spans.getD i (0, 0)
    let done := if p.item < 4 || (p.item == 4 && p.range < i) then 0 else if p.item == 4 && p.range == i then p.off else r.2
    decide (max lo (r.1 + done) < min hi (r.1 + r.2)))

/-- R114: whether a byte range of the home window stalls on a watermark of the context or on a preload of its task. -/
def homeStalls (d : Core) (lo hi : Nat) : Bool :=
  d.act.marks.any (fun w => w.stalls lo hi) ||
    (d.preloads.filter (fun p => d.act.isTask p.entry.task.taskid)).any (fun p => p.stalls lo hi)

/-- R118: whether a host entry that has not performed touches a range of local addresses and was claimed by task `t`. -/
def claimBlocks (s : State) (t a n : Nat) : Bool :=
  s.ingress.any (fun g => g.2.entries.any (fun e =>
    let b := remapLocal s (localOf e.addr)
    e.claimed.any (fun m => m.1 == t) && decide (b < a + n) && decide (a < b + e.bytes.length)))

/-- R114, R118, R378: whether pieces of the current context must wait. -/
def blocked (s : State) (ps : List Piece) : Bool :=
  ps.any (fun p =>
    let a := remapLocal s (localOf p.pa)
    pkgOf p.pa == pkgId s && (claimBlocks s s.core.act.tid a p.len || rowTested s a p.len ||
      (regionOf a == .slice && sliceCid a == cidOf s.lcn && homeStalls s.core (a % 0x400000) (a % 0x400000 + p.len))))

/-! ### Answers -/

/-- The cycle of a core that is beginning or under way. -/
def cycleOn (s : State) (n : Nat) : Nat := (coreAt s n).cycle

/-- R244, R245: a loaded scalar value. -/
def scalarValue (bs : List Byte) (z : Nat) (signed : Bool) : W64 :=
  if signed then BitVec.ofInt 64 (signExt (leAt bs 0 z) (8 * z)) else BitVec.ofNat 64 (leAt bs 0 z)

/-- Lanes filled from consecutive 4-byte values, in the order of `ls`; others zero. -/
def lanesFrom (ls : List Nat) (bs : List Byte) : List W32 :=
  (List.range 64).map (fun l =>
    match findIdx (fun x => x == l) ls 0 with
    | some i => BitVec.ofNat 32 (leAt bs (4 * i) 4)
    | none => 0)

/-- R335, R379, R382: an access failed after its slot had committed: its context takes the cause at its next boundary. -/
def failTask (t : Nat) (code : BitVec 8) (val : W64) (order : Nat) (s : State) : State :=
  modTask t (Context.defer ⟨code, val, order, causeAddr code.toNat val.toNat⟩) s

/-- R367, R382, R390: the same, of an access at an address which its detail does not name. -/
def failTaskAt (t addr : Nat) (code : BitVec 8) (val : W64) (order : Nat) (s : State) : State :=
  modTask t (Context.defer ⟨code, val, order, addr⟩) s

/-- R55, R302: the core on which task `t` is active and not leaving. -/
def onBoard (s : State) (t : Nat) : Option Nat := (activeOn s t).filter (fun n => (coreAt s n).leaving == .no)

/-- R219, R131: a result arrives in its context: its value is put in place and readable from the core's present cycle. -/
def giveResult (t rid : Nat) (sv : W64) (vv : VReg) (s : State) : State :=
  let cy := ((onBoard s t).map (cycleOn s)).getD 0
  modTask t (fun c => (c.deliver rid sv vv).answered rid cy) s

/-- R27, R382: whether a piece lies in a hole, in whatever package. -/
def holed (ps : List Piece) : Bool :=
  ps.any (fun p => regionOf (localOf p.pa) == .hole || regionOf (localOf (p.pa + max p.len 1 - 1)) != regionOf (localOf p.pa))

/-- R342, R382: the cause with which an access of several parts fails: the lowest. -/
def partsFail (ps : List Access) : Option (BitVec 8 × W64) :=
  ps.foldl (fun m x =>
    match m, x.failed with
    | some f, some g => some (if g.1 < f.1 then g else f)
    | none, g => g
    | f, none => f) none

/-- R26, R382: what an engine has of bytes that another package holds: the bytes, the cause with which their accesses have failed, or
accesses that are on their way. -/
inductive Fetch where
  | bytes (bs : List Byte) (s : State)
  | fails (code : BitVec 8) (val : W64)
  | waits (s : State)

/-- The accesses of an engine for task `t` at an address. -/
def fetches (s : State) (t va : Nat) (ret : AccessReturn) : List Access :=
  s.accesses.filter (fun a => a.ret == ret && a.taskid == t && a.va == va)

/-- R26, R284, R285, R382: an engine's accesses to pieces in another package, for task `t` on core `n`: they leave, and their answers are
taken once all have come. -/
def fetchAway (t n va asid : Nat) (ps : List Piece) (op : Nat → AccessOp) (ret : AccessReturn) (s : State) : Fetch :=
  let as := fetches s t va ret
  if as.isEmpty then
    .waits ((List.range ps.length).foldl (fun s i => remoteOp t n 0 va false (ps.getD i ⟨0, 0, 0⟩) (op i) ret asid s) s)
  else if as.any (fun a => !a.answered) then .waits s
  else
    match partsFail as with
    | some f => .fails f.1 f.2
    | none => .bytes (as.flatMap Access.data) { s with accesses := s.accesses.filter (fun a => !(a.ret == ret && a.taskid == t && a.va == va)) }

/-- Remove an access. -/
def dropAccess (id : Nat) (s : State) : State := { s with accesses := s.accesses.filter (fun a => a.id != id) }

/-- Replace an access. -/
def putAccess (a : Access) (s : State) : State :=
  { s with accesses := s.accesses.map (fun x => if x.id == a.id then a else x) }

/-- The access with a number. -/
def accessAt (s : State) (id : Nat) : Option Access := s.accesses.find? (fun a => a.id == id)

end Sys2Proof.Machine
end

