-- ==== Sys2Proof/Decode.lean ====
section
/-! DEFINITION. Decoding of slots, headers and bundles (R122 to R128, R139 to R144), total on any bits, and the encoder
written from the same maps. The cause codes a rejected slot raises are those of R346. -/

namespace Sys2Proof

/-- Why a slot holds no operation: an unassigned OPC (R144, cause 0x04), a nonzero reserved bit or a field value its
row leaves unassigned (R346, cause 0x05), or a UNIT of 6 or 7, which is a fault of the whole bundle (R345). -/
inductive DecodeError where
  | unassigned
  | reserved
  | unit
  deriving DecidableEq, Repr

/-- R124: the UNIT code of a cluster. -/
def Cluster.unit : Cluster → Nat
  | .va => 1
  | .vb => 2

/-- R124: the UNIT code of a copy engine. -/
def Engine.unit : Engine → Nat
  | .c0 => 4
  | .c1 => 5

/-- R4, R5: the field of `w` bits that begins at bit `lo` of a value. -/
def bits (x lo w : Nat) : BitVec w := BitVec.ofNat w (x / 2 ^ lo)

/-- R139: a field's share of a slot's value when it begins at bit `lo`. -/
def sh (x : BitVec w) (lo : Nat) : Nat := x.toNat * 2 ^ lo

/-- Whether the field of `w` bits at bit `lo` holds the value its row fixes. -/
def fixed (x lo w v : Nat) : Bool := x / 2 ^ lo % 2 ^ w == v

/-- R123: the UNIT field of a slot. -/
def slotUnit (w : W32) : Nat := w.toNat / 2 ^ 28 % 8

/-- R123: the OPC field of a slot. -/
def slotOpc (w : W32) : Nat := w.toNat / 2 ^ 21 % 128

/-- R123: the G bit of a slot. -/
def slotG (w : W32) : Bool := w.toNat / 2 ^ 31 % 2 == 1

/-- R123: the operand bits of a slot. -/
def slotOperand (w : W32) : Nat := w.toNat % 2 ^ 21

/-- R140: unit 0. An OPC the map marks with a dash is unassigned (R144); bits the row fixes are checked. -/
def decodeS (o x : Nat) : Except DecodeError Instr :=
  match o with
  | 0x00 => .ok (.nop (bits x 0 21))
  | 0x01 => .ok (.li (bits x 15 6) (bits x 0 15))
  | 0x02 => .ok (.lih (bits x 15 6) (bits x 0 15))
  | 0x03 => if fixed x 0 9 0 then .ok (.mov (bits x 15 6) (bits x 9 6)) else
      .error .reserved
  | 0x04 => if fixed x 0 3 0 then .ok (.add (bits x 15 6) (bits x 9 6) (bits x 3 6)) else
      .error .reserved
  | 0x05 => .ok (.addi (bits x 15 6) (bits x 9 6) (bits x 0 9))
  | 0x06 => if fixed x 0 3 0 then .ok (.sub (bits x 15 6) (bits x 9 6) (bits x 3 6)) else
      .error .reserved
  | 0x07 => if fixed x 0 3 0 then .ok (.mul (bits x 15 6) (bits x 9 6) (bits x 3 6)) else
      .error .reserved
  | 0x08 => if fixed x 0 3 0 then .ok (.mulhs (bits x 15 6) (bits x 9 6) (bits x 3 6)) else
      .error .reserved
  | 0x09 => if fixed x 0 3 0 then .ok (.mulhu (bits x 15 6) (bits x 9 6) (bits x 3 6)) else
      .error .reserved
  | 0x0A => if fixed x 0 3 0 then .ok (.divs (bits x 15 6) (bits x 9 6) (bits x 3 6)) else
      .error .reserved
  | 0x0B => if fixed x 0 3 0 then .ok (.divu (bits x 15 6) (bits x 9 6) (bits x 3 6)) else
      .error .reserved
  | 0x0C => if fixed x 0 3 0 then .ok (.rems (bits x 15 6) (bits x 9 6) (bits x 3 6)) else
      .error .reserved
  | 0x0D => if fixed x 0 3 0 then .ok (.remu (bits x 15 6) (bits x 9 6) (bits x 3 6)) else
      .error .reserved
  | 0x10 => if fixed x 0 3 0 then .ok (.and (bits x 15 6) (bits x 9 6) (bits x 3 6)) else
      .error .reserved
  | 0x11 => .ok (.andi (bits x 15 6) (bits x 9 6) (bits x 0 9))
  | 0x12 => if fixed x 0 3 0 then .ok (.or (bits x 15 6) (bits x 9 6) (bits x 3 6)) else
      .error .reserved
  | 0x13 => .ok (.ori (bits x 15 6) (bits x 9 6) (bits x 0 9))
  | 0x14 => if fixed x 0 3 0 then .ok (.xor (bits x 15 6) (bits x 9 6) (bits x 3 6)) else
      .error .reserved
  | 0x15 => .ok (.xori (bits x 15 6) (bits x 9 6) (bits x 0 9))
  | 0x16 => if fixed x 0 3 0 then .ok (.andn (bits x 15 6) (bits x 9 6) (bits x 3 6)) else
      .error .reserved
  | 0x18 => if fixed x 0 3 0 then .ok (.shl (bits x 15 6) (bits x 9 6) (bits x 3 6)) else
      .error .reserved
  | 0x19 => .ok (.shli (bits x 15 6) (bits x 9 6) (bits x 0 9))
  | 0x1A => if fixed x 0 3 0 then .ok (.shr (bits x 15 6) (bits x 9 6) (bits x 3 6)) else
      .error .reserved
  | 0x1B => .ok (.shri (bits x 15 6) (bits x 9 6) (bits x 0 9))
  | 0x1C => if fixed x 0 3 0 then .ok (.sra (bits x 15 6) (bits x 9 6) (bits x 3 6)) else
      .error .reserved
  | 0x1D => .ok (.srai (bits x 15 6) (bits x 9 6) (bits x 0 9))
  | 0x1E => if fixed x 0 3 0 then .ok (.ror (bits x 15 6) (bits x 9 6) (bits x 3 6)) else
      .error .reserved
  | 0x20 => if fixed x 0 9 0 then .ok (.clz (bits x 15 6) (bits x 9 6)) else
      .error .reserved
  | 0x21 => if fixed x 0 9 0 then .ok (.ctz (bits x 15 6) (bits x 9 6)) else
      .error .reserved
  | 0x22 => if fixed x 0 9 0 then .ok (.popc (bits x 15 6) (bits x 9 6)) else
      .error .reserved
  | 0x23 => if fixed x 0 3 0 then .ok (.mins (bits x 15 6) (bits x 9 6) (bits x 3 6)) else
      .error .reserved
  | 0x24 => if fixed x 0 3 0 then .ok (.maxs (bits x 15 6) (bits x 9 6) (bits x 3 6)) else
      .error .reserved
  | 0x25 => if fixed x 0 3 0 then .ok (.minu (bits x 15 6) (bits x 9 6) (bits x 3 6)) else
      .error .reserved
  | 0x26 => if fixed x 0 3 0 then .ok (.maxu (bits x 15 6) (bits x 9 6) (bits x 3 6)) else
      .error .reserved
  | 0x27 => .ok (.sel (bits x 15 6) (bits x 9 6) (bits x 3 6) (bits x 0 3))
  | 0x28 => if fixed x 0 3 0 then .ok (.cmp (bits x 18 3) (bits x 15 3) (bits x 9 6) (bits x 3 6)) else
      .error .reserved
  | 0x29 => .ok (.cmpi (bits x 18 3) (bits x 15 3) (bits x 9 6) (bits x 0 9))
  | 0x2A => if fixed x 6 3 0 && fixed x 12 3 0 && fixed x 18 3 0 then .ok (.plog (bits x 15 3) (bits x 9 3) (bits x 3 3) (bits x 0 3)) else
      .error .reserved
  | 0x2B => .ok (.agen (bits x 15 6) (bits x 9 6) (bits x 3 6) (bits x 0 3))
  | 0x2C => if fixed x 1 2 0 then .ok (.bxt (bits x 15 6) (bits x 9 6) (bits x 3 6) (bits x 0 1)) else
      .error .reserved
  | 0x2D => if fixed x 0 3 0 then .ok (.bin (bits x 15 6) (bits x 9 6) (bits x 3 6)) else
      .error .reserved
  | 0x30 => if fixed x 0 3 0 then .ok (.fadds (bits x 15 6) (bits x 9 6) (bits x 3 6)) else
      .error .reserved
  | 0x31 => if fixed x 0 3 0 then .ok (.fmuls (bits x 15 6) (bits x 9 6) (bits x 3 6)) else
      .error .reserved
  | 0x32 => if fixed x 0 3 0 then .ok (.ffmas (bits x 15 6) (bits x 9 6) (bits x 3 6)) else
      .error .reserved
  | 0x33 => if fixed x 0 3 0 then .ok (.fcmps (bits x 18 3) (bits x 15 3) (bits x 9 6) (bits x 3 6)) else
      .error .reserved
  | 0x34 => if fixed x 3 6 0 then .ok (.fcvts (bits x 15 6) (bits x 9 6) (bits x 0 3)) else
      .error .reserved
  | 0x38 => if fixed x 9 6 0 then .ok (.csrr (bits x 15 6) (bits x 0 9)) else
      .error .reserved
  | 0x39 => if fixed x 15 6 0 then .ok (.csrw (bits x 9 6) (bits x 0 9)) else
      .error .reserved
  | 0x3A => if fixed x 9 6 0 then .ok (.crd (bits x 15 6) (bits x 0 9)) else
      .error .reserved
  | 0x3B => if fixed x 15 6 0 then .ok (.pushm (bits x 9 6) (bits x 3 6) (bits x 0 3)) else
      .error .reserved
  | 0x3C => if fixed x 15 6 0 then .ok (.popm (bits x 9 6) (bits x 3 6) (bits x 0 3)) else
      .error .reserved
  | 0x40 => if fixed x 15 6 0 then .ok (.br (bits x 0 15)) else
      .error .reserved
  | 0x41 => .ok (.call (bits x 15 6) (bits x 0 15))
  | 0x42 => if fixed x 0 9 0 then .ok (.callr (bits x 15 6) (bits x 9 6)) else
      .error .reserved
  | 0x43 => if fixed x 0 9 0 && fixed x 15 6 0 then .ok (.ret (bits x 9 6)) else
      .error .reserved
  | 0x44 => if fixed x 15 6 0 then .ok (.jr (bits x 9 6) (bits x 0 9)) else
      .error .reserved
  | 0x45 => if fixed x 0 9 0 && fixed x 20 1 0 then .ok (.loop (bits x 15 5) (bits x 9 6)) else
      if fixed x 0 3 1 && fixed x 20 1 0 then .ok (.loopImm (bits x 15 5) (bits x 3 12)) else
      .error .reserved
  | 0x46 => if fixed x 3 18 0 then .ok (.loopx (bits x 0 3)) else
      .error .reserved
  | 0x47 => if fixed x 0 9 0 && fixed x 18 3 0 then .ok (.repv (bits x 15 3) (bits x 9 6)) else
      if fixed x 0 3 1 && fixed x 18 3 0 then .ok (.repvImm (bits x 15 3) (bits x 3 12)) else
      .error .reserved
  | 0x48 => if fixed x 15 6 0 then .ok (.layer (bits x 0 15)) else
      .error .reserved
  | 0x49 => if fixed x 0 21 0 then .ok (.lret) else
      .error .reserved
  | 0x4A => if fixed x 0 9 0 && fixed x 15 6 0 then .ok (.tspawn (bits x 9 6)) else
      .error .reserved
  | 0x4B => if fixed x 0 9 0 && fixed x 15 6 0 then .ok (.texit (bits x 9 6)) else
      .error .reserved
  | 0x4C => if fixed x 0 9 0 then .ok (.tjoin (bits x 15 6) (bits x 9 6)) else
      .error .reserved
  | 0x4D => if fixed x 0 3 0 && fixed x 18 3 0 then .ok (.waitSw (bits x 15 3) (bits x 9 6) (bits x 3 6)) else
      if fixed x 0 3 1 && fixed x 18 3 0 then .ok (.waitBs (bits x 15 3) (bits x 9 6) (bits x 3 6)) else
      .error .reserved
  | 0x4E => if fixed x 0 21 0 then .ok (.yield) else
      .error .reserved
  | 0x4F => if fixed x 9 12 0 then .ok (.hwin (bits x 0 9)) else
      .error .reserved
  | 0x50 => if fixed x 3 18 0 then .ok (.opsel (bits x 0 3)) else
      .error .reserved
  | 0x51 => if fixed x 2 19 0 then .ok (.fidset (bits x 0 2)) else
      .error .reserved
  | 0x52 => if fixed x 15 6 0 then .ok (.psub (bits x 9 6) (bits x 3 6) (bits x 0 3)) else
      .error .reserved
  | 0x53 => if fixed x 0 15 0 then .ok (.rdtick (bits x 15 6)) else
      .error .reserved
  | 0x54 => if fixed x 9 12 0 then .ok (.trap (bits x 0 9)) else
      .error .reserved
  | 0x55 => if fixed x 9 12 0 then .ok (.svc (bits x 0 9)) else
      .error .reserved
  | 0x56 => if fixed x 0 21 0 then .ok (.eret) else
      .error .reserved
  | 0x57 => if fixed x 0 9 0 && fixed x 15 6 0 then .ok (.tlbir (bits x 9 6)) else
      if fixed x 0 9 1 && fixed x 15 6 0 then .ok (.tlbirAll (bits x 9 6)) else
      .error .reserved
  | 0x58 => .ok (.ldbS (bits x 15 6) (bits x 9 6) (bits x 8 1) (bits x 0 8))
  | 0x59 => .ok (.ldbU (bits x 15 6) (bits x 9 6) (bits x 8 1) (bits x 0 8))
  | 0x5A => .ok (.ldhS (bits x 15 6) (bits x 9 6) (bits x 8 1) (bits x 0 8))
  | 0x5B => .ok (.ldhU (bits x 15 6) (bits x 9 6) (bits x 8 1) (bits x 0 8))
  | 0x5C => .ok (.ldwS (bits x 15 6) (bits x 9 6) (bits x 8 1) (bits x 0 8))
  | 0x5D => .ok (.ldwU (bits x 15 6) (bits x 9 6) (bits x 8 1) (bits x 0 8))
  | 0x5E => .ok (.lddS (bits x 15 6) (bits x 9 6) (bits x 8 1) (bits x 0 8))
  | 0x5F => .ok (.lddU (bits x 15 6) (bits x 9 6) (bits x 8 1) (bits x 0 8))
  | 0x60 => .ok (.stb (bits x 15 6) (bits x 9 6) (bits x 8 1) (bits x 0 8))
  | 0x61 => .ok (.sth (bits x 15 6) (bits x 9 6) (bits x 8 1) (bits x 0 8))
  | 0x62 => .ok (.stw (bits x 15 6) (bits x 9 6) (bits x 8 1) (bits x 0 8))
  | 0x63 => .ok (.std (bits x 15 6) (bits x 9 6) (bits x 8 1) (bits x 0 8))
  | 0x64 => .ok (.cas (bits x 15 6) (bits x 9 6) (bits x 3 6) (bits x 1 2) (bits x 0 1))
  | 0x65 => if fixed x 19 2 0 then .ok (.fence (bits x 16 3) (bits x 0 16)) else
      .error .reserved
  | 0x66 => if fixed x 0 21 0 then .ok (.synci) else
      .error .reserved
  | 0x67 => if fixed x 0 21 0 then .ok (.synca) else
      if fixed x 0 21 1 then .ok (.syncaAll) else
      .error .reserved
  | 0x68 => .ok (.amoAdd (bits x 15 6) (bits x 9 6) (bits x 3 6) (bits x 1 2) (bits x 0 1))
  | 0x69 => .ok (.amoAnd (bits x 15 6) (bits x 9 6) (bits x 3 6) (bits x 1 2) (bits x 0 1))
  | 0x6A => .ok (.amoOr (bits x 15 6) (bits x 9 6) (bits x 3 6) (bits x 1 2) (bits x 0 1))
  | 0x6B => .ok (.amoXor (bits x 15 6) (bits x 9 6) (bits x 3 6) (bits x 1 2) (bits x 0 1))
  | 0x6C => .ok (.amoMin (bits x 15 6) (bits x 9 6) (bits x 3 6) (bits x 1 2) (bits x 0 1))
  | 0x6D => .ok (.amoMax (bits x 15 6) (bits x 9 6) (bits x 3 6) (bits x 1 2) (bits x 0 1))
  | 0x6E => .ok (.amoMinu (bits x 15 6) (bits x 9 6) (bits x 3 6) (bits x 1 2) (bits x 0 1))
  | 0x6F => .ok (.amoMaxu (bits x 15 6) (bits x 9 6) (bits x 3 6) (bits x 1 2) (bits x 0 1))
  | 0x70 => .ok (.amoSwap (bits x 15 6) (bits x 9 6) (bits x 3 6) (bits x 1 2) (bits x 0 1))
  | 0x71 => if fixed x 0 1 0 then .ok (.amoFadd32 (bits x 15 6) (bits x 9 6) (bits x 3 6) (bits x 1 2)) else
      .error .reserved
  | 0x72 => if fixed x 0 3 0 && fixed x 18 3 0 then .ok (.bars (bits x 15 3) (bits x 9 6) (bits x 3 6)) else
      .error .reserved
  | 0x73 => if fixed x 0 3 0 then .ok (.bara (bits x 15 6) (bits x 9 6) (bits x 3 6)) else
      .error .reserved
  | 0x74 => if fixed x 0 9 0 && fixed x 15 6 0 then .ok (.barrt (bits x 9 6)) else
      .error .reserved
  | 0x75 => if fixed x 0 3 0 && fixed x 7 8 0 && fixed x 18 3 0 then .ok (.barn (bits x 15 3) (bits x 3 4)) else
      if fixed x 0 3 1 && fixed x 7 8 0 && fixed x 18 3 0 then .ok (.barnA (bits x 15 3) (bits x 3 4)) else
      .error .reserved
  | 0x78 => if fixed x 0 3 0 then .ok (.copen (bits x 15 6) (bits x 9 6) (bits x 3 6)) else
      .error .reserved
  | 0x79 => if fixed x 0 3 0 then .ok (.chold (bits x 15 6) (bits x 9 6) (bits x 3 6)) else
      .error .reserved
  | 0x7A => if fixed x 0 9 0 && fixed x 15 6 0 then .ok (.cclose (bits x 9 6)) else
      .error .reserved
  | 0x7B => if fixed x 0 9 0 then .ok (.cstat (bits x 15 6) (bits x 9 6)) else
      .error .reserved
  | 0x7C => if fixed x 0 9 0 then .ok (.npost (bits x 15 6) (bits x 9 6)) else
      .error .reserved
  | _ => .error .unassigned

/-- R141: units 1 and 2. An OPC the map marks with a dash is unassigned (R144); bits the row fixes are checked. -/
def decodeV (v : Cluster) (o x : Nat) : Except DecodeError Instr :=
  match o with
  | 0x00 => .ok (.vadd v (bits x 15 6) (bits x 9 6) (bits x 3 6) (bits x 0 3))
  | 0x01 => .ok (.vsub v (bits x 15 6) (bits x 9 6) (bits x 3 6) (bits x 0 3))
  | 0x02 => .ok (.vmul v (bits x 15 6) (bits x 9 6) (bits x 3 6) (bits x 0 3))
  | 0x03 => .ok (.vfma v (bits x 15 6) (bits x 9 6) (bits x 3 6) (bits x 0 3))
  | 0x04 => .ok (.vfms v (bits x 15 6) (bits x 9 6) (bits x 3 6) (bits x 0 3))
  | 0x05 => .ok (.vfnma v (bits x 15 6) (bits x 9 6) (bits x 3 6) (bits x 0 3))
  | 0x06 => .ok (.vmin v (bits x 15 6) (bits x 9 6) (bits x 3 6) (bits x 0 3))
  | 0x07 => .ok (.vmax v (bits x 15 6) (bits x 9 6) (bits x 3 6) (bits x 0 3))
  | 0x08 => if fixed x 3 6 0 then .ok (.vabs v (bits x 15 6) (bits x 9 6) (bits x 0 3)) else
      .error .reserved
  | 0x09 => if fixed x 3 6 0 then .ok (.vneg v (bits x 15 6) (bits x 9 6) (bits x 0 3)) else
      .error .reserved
  | 0x0A => if fixed x 3 6 0 then .ok (.vrcp v (bits x 15 6) (bits x 9 6) (bits x 0 3)) else
      .error .reserved
  | 0x0B => if fixed x 3 6 0 then .ok (.vrsq v (bits x 15 6) (bits x 9 6) (bits x 0 3)) else
      .error .reserved
  | 0x0C => if fixed x 3 6 0 then .ok (.vexp2 v (bits x 15 6) (bits x 9 6) (bits x 0 3)) else
      .error .reserved
  | 0x0D => if fixed x 3 6 0 then .ok (.vlog2 v (bits x 15 6) (bits x 9 6) (bits x 0 3)) else
      .error .reserved
  | 0x10 => .ok (.viadd v (bits x 15 6) (bits x 9 6) (bits x 3 6) (bits x 0 3))
  | 0x11 => .ok (.visub v (bits x 15 6) (bits x 9 6) (bits x 3 6) (bits x 0 3))
  | 0x12 => .ok (.vimul v (bits x 15 6) (bits x 9 6) (bits x 3 6) (bits x 0 3))
  | 0x13 => .ok (.vimad v (bits x 15 6) (bits x 9 6) (bits x 3 6) (bits x 0 3))
  | 0x14 => .ok (.vimin v (bits x 15 6) (bits x 9 6) (bits x 3 6) (bits x 0 3))
  | 0x15 => .ok (.vimax v (bits x 15 6) (bits x 9 6) (bits x 3 6) (bits x 0 3))
  | 0x18 => .ok (.vand v (bits x 15 6) (bits x 9 6) (bits x 3 6) (bits x 0 3))
  | 0x19 => .ok (.vor v (bits x 15 6) (bits x 9 6) (bits x 3 6) (bits x 0 3))
  | 0x1A => .ok (.vxor v (bits x 15 6) (bits x 9 6) (bits x 3 6) (bits x 0 3))
  | 0x1B => if fixed x 3 6 0 then .ok (.vnot v (bits x 15 6) (bits x 9 6) (bits x 0 3)) else
      .error .reserved
  | 0x1C => .ok (.vshl v (bits x 15 6) (bits x 9 6) (bits x 3 6) (bits x 0 3))
  | 0x1D => .ok (.vshr v (bits x 15 6) (bits x 9 6) (bits x 3 6) (bits x 0 3))
  | 0x1E => .ok (.vsra v (bits x 15 6) (bits x 9 6) (bits x 3 6) (bits x 0 3))
  | 0x20 => .ok (.vcmp v (bits x 18 3) (bits x 15 3) (bits x 9 6) (bits x 3 6) (bits x 0 3))
  | 0x21 => .ok (.vicmp v (bits x 18 3) (bits x 15 3) (bits x 9 6) (bits x 3 6) (bits x 0 3))
  | 0x22 => .ok (.vsel v (bits x 15 6) (bits x 9 6) (bits x 3 6) (bits x 0 3))
  | 0x23 => if fixed x 16 5 0 then .ok (.vcx v (bits x 15 1) (bits x 9 6) (bits x 3 6) (bits x 0 3)) else
      .error .reserved
  | 0x28 => .ok (.vcvt v (bits x 15 6) (bits x 9 6) (bits x 7 2) (bits x 3 4) (bits x 0 3))
  | 0x29 => if fixed x 0 3 0 && fixed x 7 2 0 then .ok (.vqnt v (bits x 15 6) (bits x 9 6) (bits x 5 2) (bits x 3 2)) else
      .error .reserved
  | 0x2A => if fixed x 3 2 0 && fixed x 7 2 0 then .ok (.vdqnt v (bits x 15 6) (bits x 9 6) (bits x 5 2) (bits x 0 3)) else
      .error .reserved
  | 0x2B => if fixed x 3 6 0 && fixed x 15 6 0 then .ok (.vhist v (bits x 9 6) (bits x 0 3)) else
      .error .reserved
  | 0x2C => if fixed x 0 15 1 then .ok (.vhclrRd v (bits x 15 6)) else
      if fixed x 0 21 2 then .ok (.vhclr v) else
      if fixed x 0 15 3 then .ok (.vhclrRdc v (bits x 15 6)) else
      .error .reserved
  | 0x2D => if fixed x 7 2 0 then .ok (.vtag v (bits x 15 6) (bits x 9 6) (bits x 3 4) (bits x 0 3)) else
      .error .reserved
  | 0x30 => if fixed x 6 3 0 then .ok (.vreds v (bits x 15 6) (bits x 9 6) (bits x 3 3) (bits x 0 3)) else
      .error .reserved
  | 0x31 => if fixed x 6 3 0 then .ok (.vscan v (bits x 15 6) (bits x 9 6) (bits x 3 3) (bits x 0 3)) else
      .error .reserved
  | 0x32 => .ok (.vperm v (bits x 15 6) (bits x 9 6) (bits x 3 6) (bits x 0 3))
  | 0x33 => .ok (.vshuf v (bits x 15 6) (bits x 9 6) (bits x 3 6) (bits x 0 3))
  | 0x34 => if fixed x 0 3 0 && fixed x 7 2 0 then .ok (.vbcastS v (bits x 15 6) (bits x 9 6) (bits x 3 4)) else
      if fixed x 0 3 1 then .ok (.vbcastL v (bits x 15 6) (bits x 9 6) (bits x 3 6)) else
      .error .reserved
  | 0x35 => .ok (.viota v (bits x 15 6) (bits x 9 6) (bits x 3 6) (bits x 0 3))
  | 0x36 => if fixed x 3 6 0 then .ok (.vmov v (bits x 15 6) (bits x 9 6) (bits x 0 3)) else
      .error .reserved
  | 0x37 => if fixed x 3 6 0 then .ok (.vxfer v (bits x 15 6) (bits x 9 6) (bits x 0 3)) else
      .error .reserved
  | 0x38 => .ok (.mlog v (bits x 15 6) (bits x 9 6) (bits x 3 6) (bits x 0 3))
  | 0x39 => if fixed x 3 6 0 then .ok (.mpop v (bits x 15 6) (bits x 9 6) (bits x 0 3)) else
      .error .reserved
  | 0x3A => if fixed x 3 6 0 then .ok (.mffs v (bits x 15 6) (bits x 9 6) (bits x 0 3)) else
      .error .reserved
  | 0x3B => if fixed x 0 9 0 then .ok (.mmovs v (bits x 15 6) (bits x 9 6)) else
      .error .reserved
  | 0x3C => if fixed x 0 9 0 then .ok (.mfroms v (bits x 15 6) (bits x 9 6)) else
      .error .reserved
  | 0x40 => if fixed x 7 2 0 then .ok (.ldv v (bits x 15 6) (bits x 9 6) (bits x 3 4) (bits x 0 3)) else
      .error .reserved
  | 0x41 => if fixed x 15 6 0 then .ok (.stv v (bits x 9 6) (bits x 3 6) (bits x 0 3)) else
      .error .reserved
  | 0x42 => .ok (.ldvs v (bits x 15 6) (bits x 9 6) (bits x 3 6) (bits x 0 3))
  | 0x43 => .ok (.gath v (bits x 15 6) (bits x 9 6) (bits x 3 6) (bits x 0 3))
  | 0x44 => .ok (.scat v (bits x 15 6) (bits x 9 6) (bits x 3 6) (bits x 0 3))
  | _ => .error .unassigned

/-- R142: unit 3. An OPC the map marks with a dash is unassigned (R144); bits the row fixes are checked. -/
def decodeM (o x : Nat) : Except DecodeError Instr :=
  match o with
  | 0x00 => if fixed x 0 9 0 then .ok (.tcfg (bits x 15 6) (bits x 9 6)) else
      if fixed x 0 9 1 then .ok (.tcfgRd (bits x 15 6) (bits x 9 6)) else
      .error .reserved
  | 0x01 => if fixed x 0 15 0 then .ok (.tzero (bits x 15 6)) else
      .error .reserved
  | 0x02 => if fixed x 2 1 0 then .ok (.tld (bits x 15 6) (bits x 9 6) (bits x 3 6) (bits x 0 2)) else
      .error .reserved
  | 0x03 => if fixed x 2 1 0 then .ok (.tst (bits x 15 6) (bits x 9 6) (bits x 3 6) (bits x 0 2)) else
      .error .reserved
  | 0x04 => if fixed x 0 3 0 then .ok (.trwr (bits x 15 6) (bits x 9 6) (bits x 3 6)) else
      .error .reserved
  | 0x05 => if fixed x 0 3 0 then .ok (.trrd (bits x 15 6) (bits x 9 6) (bits x 3 6)) else
      .error .reserved
  | 0x06 => if fixed x 0 3 0 then .ok (.tcwr (bits x 15 6) (bits x 9 6) (bits x 3 6)) else
      .error .reserved
  | 0x07 => if fixed x 0 3 0 then .ok (.tcrd (bits x 15 6) (bits x 9 6) (bits x 3 6)) else
      .error .reserved
  | 0x08 => if fixed x 0 9 0 then .ok (.tmsk (bits x 15 6) (bits x 9 6)) else
      if fixed x 0 9 1 then .ok (.tmskRd (bits x 15 6) (bits x 9 6)) else
      .error .reserved
  | 0x10 => if fixed x 2 1 0 then .ok (.mma (bits x 15 6) (bits x 9 6) (bits x 3 6) (bits x 0 2)) else
      .error .reserved
  | 0x11 => if fixed x 2 1 0 then .ok (.mmac (bits x 15 6) (bits x 9 6) (bits x 3 6) (bits x 0 2)) else
      .error .reserved
  | 0x12 => if fixed x 2 1 0 then .ok (.mmab (bits x 15 6) (bits x 9 6) (bits x 3 6) (bits x 0 2)) else
      .error .reserved
  | 0x14 => if fixed x 0 15 0 then .ok (.aczF (bits x 15 6)) else
      if fixed x 0 15 1 then .ok (.aczI (bits x 15 6)) else
      .error .reserved
  | 0x15 => if fixed x 0 3 0 then .ok (.acrd (bits x 15 6) (bits x 9 6) (bits x 3 6)) else
      .error .reserved
  | 0x16 => if fixed x 0 3 0 then .ok (.acwr (bits x 15 6) (bits x 9 6) (bits x 3 6)) else
      .error .reserved
  | 0x17 => if fixed x 2 7 0 then .ok (.accvt (bits x 15 6) (bits x 9 6) (bits x 0 2)) else
      .error .reserved
  | 0x18 => if fixed x 1 2 0 && fixed x 8 7 0 then .ok (.rkdecl (bits x 15 6) (bits x 7 1) (bits x 3 4) (bits x 0 1)) else
      .error .reserved
  | 0x19 => if fixed x 0 15 0 then .ok (.rkrel (bits x 15 6)) else
      .error .reserved
  | 0x1A => .ok (.rkins (bits x 15 6) (bits x 9 6) (bits x 3 6) (bits x 0 3))
  | 0x1B => if fixed x 2 7 0 then .ok (.rkacc (bits x 15 6) (bits x 9 6) (bits x 0 2)) else
      .error .reserved
  | 0x1C => if fixed x 0 9 0 then .ok (.rkmerge (bits x 15 6) (bits x 9 6)) else
      .error .reserved
  | 0x1D => if fixed x 2 7 0 then .ok (.rkst (bits x 15 6) (bits x 9 6) (bits x 0 2)) else
      .error .reserved
  | 0x1E => if fixed x 0 9 0 then .ok (.rkld (bits x 15 6) (bits x 9 6)) else
      .error .reserved
  | 0x1F => if fixed x 0 9 0 then .ok (.rkth (bits x 15 6) (bits x 9 6)) else
      .error .reserved
  | 0x20 => if fixed x 0 9 0 then .ok (.rklen (bits x 15 6) (bits x 9 6)) else
      .error .reserved
  | _ => .error .unassigned

/-- R143: units 4 and 5. An OPC the map marks with a dash is unassigned (R144); bits the row fixes are checked. -/
def decodeC (e : Engine) (o x : Nat) : Except DecodeError Instr :=
  match o with
  | 0x00 => if fixed x 0 3 0 && fixed x 18 3 0 then .ok (.cdim e (bits x 15 3) (bits x 9 6) (bits x 3 6)) else
      .error .reserved
  | 0x01 => if fixed x 1 2 0 && fixed x 19 2 0 then .ok (.cset e (bits x 15 4) (bits x 9 6) (bits x 3 6) (bits x 0 1)) else
      .error .reserved
  | 0x02 => if fixed x 8 13 0 then .ok (.clab e (bits x 0 8)) else
      .error .reserved
  | 0x03 => if fixed x 3 6 0 && fixed x 19 2 0 then .ok (.cpy e (bits x 18 1) (bits x 17 1) (bits x 15 2) (bits x 9 6) (bits x 0 3)) else
      .error .reserved
  | 0x04 => if fixed x 0 3 0 && fixed x 17 4 0 then .ok (.cwm e (bits x 15 2) (bits x 9 6) (bits x 3 6)) else
      if fixed x 0 15 1 && fixed x 17 4 0 then .ok (.cwmOff e (bits x 15 2)) else
      .error .reserved
  | 0x05 => if fixed x 0 9 0 && fixed x 17 4 0 then .ok (.csync e (bits x 15 2) (bits x 9 6)) else
      if fixed x 0 9 1 && fixed x 17 4 0 then .ok (.csyncBs e (bits x 15 2) (bits x 9 6)) else
      .error .reserved
  | 0x06 => if fixed x 0 15 0 && fixed x 17 4 0 then .ok (.ccan e (bits x 15 2)) else
      if fixed x 0 15 1 && fixed x 17 4 0 then .ok (.ccanAll e (bits x 15 2)) else
      .error .reserved
  | 0x07 => if fixed x 5 10 0 then .ok (.cqry e (bits x 15 6) (bits x 3 2) (bits x 0 3)) else
      .error .reserved
  | 0x08 => if fixed x 18 3 0 then .ok (.csend e (bits x 17 1) (bits x 15 2) (bits x 9 6) (bits x 3 6) (bits x 0 3)) else
      .error .reserved
  | _ => .error .unassigned

/-- R124: the operation a unit reads from an OPC and operand bits. -/
def decodeFields (u o x : Nat) : Except DecodeError Instr :=
  match u with
  | 0 => decodeS o x
  | 1 => decodeV .va o x
  | 2 => decodeV .vb o x
  | 3 => decodeM o x
  | 4 => decodeC .c0 o x
  | 5 => decodeC .c1 o x
  | _ => .error .unit

/-- R123: a slot's operation with its group-end bit. -/
def decodeSlot (w : W32) : Except DecodeError Slot :=
  (decodeFields (slotUnit w) (slotOpc w) (slotOperand w)).map fun i => ⟨slotG w, i⟩

/-- R126: the header of a bundle: reserved bit 31, weight W, extension bytes X1 to X3. -/
structure Header where
  res31 : Bool
  weight : BitVec 4
  x1 : BitVec 8
  x2 : BitVec 8
  x3 : BitVec 8
  deriving DecidableEq, Repr

/-- R126: the header fields of a slot-0 word. -/
def decodeHeader (w : W32) : Header :=
  ⟨w.getLsbD 31, w.extractLsb' 24 4, w.extractLsb' 0 8, w.extractLsb' 8 8, w.extractLsb' 16 8⟩

/-- R122: slot k of a bundle, bits [32k + 31 : 32k]. -/
def bundleSlot (b : BitVec 128) (k : Nat) : W32 := b.extractLsb' (32 * k) 32

/-- R126: the header of a bundle, when slot 0 has UNIT 7. -/
def bundleHeader (b : BitVec 128) : Option Header :=
  if slotUnit (bundleSlot b 0) = 7 then some (decodeHeader (bundleSlot b 0)) else none

/-- R127: an extension byte: guard predicate, inversion, extra bits. -/
structure ExtByte where
  gsel : BitVec 3
  ginv : Bool
  xb : BitVec 4
  deriving DecidableEq, Repr

/-- R127: the fields of an extension byte. -/
def decodeExt (x : BitVec 8) : ExtByte :=
  ⟨x.extractLsb' 5 3, x.getLsbD 4, x.extractLsb' 0 4⟩

/-- R126, R127: the extension byte slot k behaves by: that of the header for slots 1 to 3, else 0. -/
def bundleExt (b : BitVec 128) (k : Nat) : ExtByte :=
  match bundleHeader b with
  | none => decodeExt 0#8
  | some h =>
    match k with
    | 1 => decodeExt h.x1
    | 2 => decodeExt h.x2
    | 3 => decodeExt h.x3
    | _ => decodeExt 0#8

/-- R140: the arithmetic, compare and control-register rows of unit 0. The unit, OPC and operand bits of an operation, as the sum of R139. -/
def encodeS0 : Instr → Option (Nat × Nat × Nat)
  | .nop x => some (0, 0, sh x 0)
  | .li d i => some (0, 1, sh d 15 + sh i 0)
  | .lih d i => some (0, 2, sh d 15 + sh i 0)
  | .mov d a => some (0, 3, sh d 15 + sh a 9)
  | .add d a b => some (0, 4, sh d 15 + sh a 9 + sh b 3)
  | .addi d a i => some (0, 5, sh d 15 + sh a 9 + sh i 0)
  | .sub d a b => some (0, 6, sh d 15 + sh a 9 + sh b 3)
  | .mul d a b => some (0, 7, sh d 15 + sh a 9 + sh b 3)
  | .mulhs d a b => some (0, 8, sh d 15 + sh a 9 + sh b 3)
  | .mulhu d a b => some (0, 9, sh d 15 + sh a 9 + sh b 3)
  | .divs d a b => some (0, 10, sh d 15 + sh a 9 + sh b 3)
  | .divu d a b => some (0, 11, sh d 15 + sh a 9 + sh b 3)
  | .rems d a b => some (0, 12, sh d 15 + sh a 9 + sh b 3)
  | .remu d a b => some (0, 13, sh d 15 + sh a 9 + sh b 3)
  | .and d a b => some (0, 16, sh d 15 + sh a 9 + sh b 3)
  | .andi d a i => some (0, 17, sh d 15 + sh a 9 + sh i 0)
  | .or d a b => some (0, 18, sh d 15 + sh a 9 + sh b 3)
  | .ori d a i => some (0, 19, sh d 15 + sh a 9 + sh i 0)
  | .xor d a b => some (0, 20, sh d 15 + sh a 9 + sh b 3)
  | .xori d a i => some (0, 21, sh d 15 + sh a 9 + sh i 0)
  | .andn d a b => some (0, 22, sh d 15 + sh a 9 + sh b 3)
  | .shl d a b => some (0, 24, sh d 15 + sh a 9 + sh b 3)
  | .shli d a i => some (0, 25, sh d 15 + sh a 9 + sh i 0)
  | .shr d a b => some (0, 26, sh d 15 + sh a 9 + sh b 3)
  | .shri d a i => some (0, 27, sh d 15 + sh a 9 + sh i 0)
  | .sra d a b => some (0, 28, sh d 15 + sh a 9 + sh b 3)
  | .srai d a i => some (0, 29, sh d 15 + sh a 9 + sh i 0)
  | .ror d a b => some (0, 30, sh d 15 + sh a 9 + sh b 3)
  | .clz d a => some (0, 32, sh d 15 + sh a 9)
  | .ctz d a => some (0, 33, sh d 15 + sh a 9)
  | .popc d a => some (0, 34, sh d 15 + sh a 9)
  | .mins d a b => some (0, 35, sh d 15 + sh a 9 + sh b 3)
  | .maxs d a b => some (0, 36, sh d 15 + sh a 9 + sh b 3)
  | .minu d a b => some (0, 37, sh d 15 + sh a 9 + sh b 3)
  | .maxu d a b => some (0, 38, sh d 15 + sh a 9 + sh b 3)
  | .sel d a b p => some (0, 39, sh d 15 + sh a 9 + sh b 3 + sh p 0)
  | .cmp c p a b => some (0, 40, sh c 18 + sh p 15 + sh a 9 + sh b 3)
  | .cmpi c p a i => some (0, 41, sh c 18 + sh p 15 + sh a 9 + sh i 0)
  | .plog d a b o => some (0, 42, sh d 15 + sh a 9 + sh b 3 + sh o 0)
  | .agen d a b l => some (0, 43, sh d 15 + sh a 9 + sh b 3 + sh l 0)
  | .bxt d a b s => some (0, 44, sh d 15 + sh a 9 + sh b 3 + sh s 0)
  | .bin d a b => some (0, 45, sh d 15 + sh a 9 + sh b 3)
  | .fadds d a b => some (0, 48, sh d 15 + sh a 9 + sh b 3)
  | .fmuls d a b => some (0, 49, sh d 15 + sh a 9 + sh b 3)
  | .ffmas d a b => some (0, 50, sh d 15 + sh a 9 + sh b 3)
  | .fcmps c p a b => some (0, 51, sh c 18 + sh p 15 + sh a 9 + sh b 3)
  | .fcvts d a k => some (0, 52, sh d 15 + sh a 9 + sh k 0)
  | .csrr d n => some (0, 56, sh d 15 + sh n 0)
  | .csrw a n => some (0, 57, sh a 9 + sh n 0)
  | .crd d n => some (0, 58, sh d 15 + sh n 0)
  | .pushm a b f => some (0, 59, sh a 9 + sh b 3 + sh f 0)
  | .popm a b f => some (0, 60, sh a 9 + sh b 3 + sh f 0)
  | _ => none

/-- R140: the control, memory and circuit rows of unit 0. The unit, OPC and operand bits of an operation, as the sum of R139. -/
def encodeS1 : Instr → Option (Nat × Nat × Nat)
  | .br i => some (0, 64, sh i 0)
  | .call d i => some (0, 65, sh d 15 + sh i 0)
  | .callr d a => some (0, 66, sh d 15 + sh a 9)
  | .ret a => some (0, 67, sh a 9)
  | .jr a i => some (0, 68, sh a 9 + sh i 0)
  | .loop l a => some (0, 69, sh l 15 + sh a 9)
  | .loopImm l c => some (0, 69, sh l 15 + sh c 3 + 1)
  | .loopx k => some (0, 70, sh k 0)
  | .repv s a => some (0, 71, sh s 15 + sh a 9)
  | .repvImm s c => some (0, 71, sh s 15 + sh c 3 + 1)
  | .layer n => some (0, 72, sh n 0)
  | .lret => some (0, 73, 0)
  | .tspawn a => some (0, 74, sh a 9)
  | .texit a => some (0, 75, sh a 9)
  | .tjoin d a => some (0, 76, sh d 15 + sh a 9)
  | .waitSw s a b => some (0, 77, sh s 15 + sh a 9 + sh b 3)
  | .waitBs s a b => some (0, 77, sh s 15 + sh a 9 + sh b 3 + 1)
  | .yield => some (0, 78, 0)
  | .hwin n => some (0, 79, sh n 0)
  | .opsel k => some (0, 80, sh k 0)
  | .fidset f => some (0, 81, sh f 0)
  | .psub a b s => some (0, 82, sh a 9 + sh b 3 + sh s 0)
  | .rdtick d => some (0, 83, sh d 15)
  | .trap n => some (0, 84, sh n 0)
  | .svc n => some (0, 85, sh n 0)
  | .eret => some (0, 86, 0)
  | .tlbir a => some (0, 87, sh a 9)
  | .tlbirAll a => some (0, 87, sh a 9 + 1)
  | .ldbS d a f i => some (0, 88, sh d 15 + sh a 9 + sh f 8 + sh i 0)
  | .ldbU d a f i => some (0, 89, sh d 15 + sh a 9 + sh f 8 + sh i 0)
  | .ldhS d a f i => some (0, 90, sh d 15 + sh a 9 + sh f 8 + sh i 0)
  | .ldhU d a f i => some (0, 91, sh d 15 + sh a 9 + sh f 8 + sh i 0)
  | .ldwS d a f i => some (0, 92, sh d 15 + sh a 9 + sh f 8 + sh i 0)
  | .ldwU d a f i => some (0, 93, sh d 15 + sh a 9 + sh f 8 + sh i 0)
  | .lddS d a f i => some (0, 94, sh d 15 + sh a 9 + sh f 8 + sh i 0)
  | .lddU d a f i => some (0, 95, sh d 15 + sh a 9 + sh f 8 + sh i 0)
  | .stb d a f i => some (0, 96, sh d 15 + sh a 9 + sh f 8 + sh i 0)
  | .sth d a f i => some (0, 97, sh d 15 + sh a 9 + sh f 8 + sh i 0)
  | .stw d a f i => some (0, 98, sh d 15 + sh a 9 + sh f 8 + sh i 0)
  | .std d a f i => some (0, 99, sh d 15 + sh a 9 + sh f 8 + sh i 0)
  | .cas d a b o w => some (0, 100, sh d 15 + sh a 9 + sh b 3 + sh o 1 + sh w 0)
  | .fence s m => some (0, 101, sh s 16 + sh m 0)
  | .synci => some (0, 102, 0)
  | .synca => some (0, 103, 0)
  | .syncaAll => some (0, 103, 1)
  | .amoAdd d a b o w => some (0, 104, sh d 15 + sh a 9 + sh b 3 + sh o 1 + sh w 0)
  | .amoAnd d a b o w => some (0, 105, sh d 15 + sh a 9 + sh b 3 + sh o 1 + sh w 0)
  | .amoOr d a b o w => some (0, 106, sh d 15 + sh a 9 + sh b 3 + sh o 1 + sh w 0)
  | .amoXor d a b o w => some (0, 107, sh d 15 + sh a 9 + sh b 3 + sh o 1 + sh w 0)
  | .amoMin d a b o w => some (0, 108, sh d 15 + sh a 9 + sh b 3 + sh o 1 + sh w 0)
  | .amoMax d a b o w => some (0, 109, sh d 15 + sh a 9 + sh b 3 + sh o 1 + sh w 0)
  | .amoMinu d a b o w => some (0, 110, sh d 15 + sh a 9 + sh b 3 + sh o 1 + sh w 0)
  | .amoMaxu d a b o w => some (0, 111, sh d 15 + sh a 9 + sh b 3 + sh o 1 + sh w 0)
  | .amoSwap d a b o w => some (0, 112, sh d 15 + sh a 9 + sh b 3 + sh o 1 + sh w 0)
  | .amoFadd32 d a b o => some (0, 113, sh d 15 + sh a 9 + sh b 3 + sh o 1)
  | .bars s a b => some (0, 114, sh s 15 + sh a 9 + sh b 3)
  | .bara d a b => some (0, 115, sh d 15 + sh a 9 + sh b 3)
  | .barrt a => some (0, 116, sh a 9)
  | .barn s i => some (0, 117, sh s 15 + sh i 3)
  | .barnA s i => some (0, 117, sh s 15 + sh i 3 + 1)
  | .copen d a b => some (0, 120, sh d 15 + sh a 9 + sh b 3)
  | .chold d a b => some (0, 121, sh d 15 + sh a 9 + sh b 3)
  | .cclose a => some (0, 122, sh a 9)
  | .cstat d a => some (0, 123, sh d 15 + sh a 9)
  | .npost d a => some (0, 124, sh d 15 + sh a 9)
  | _ => none

/-- R141: units 1 and 2. The unit, OPC and operand bits of an operation, as the sum of R139. -/
def encodeV : Instr → Option (Nat × Nat × Nat)
  | .vadd v d a b m => some (v.unit, 0, sh d 15 + sh a 9 + sh b 3 + sh m 0)
  | .vsub v d a b m => some (v.unit, 1, sh d 15 + sh a 9 + sh b 3 + sh m 0)
  | .vmul v d a b m => some (v.unit, 2, sh d 15 + sh a 9 + sh b 3 + sh m 0)
  | .vfma v d a b m => some (v.unit, 3, sh d 15 + sh a 9 + sh b 3 + sh m 0)
  | .vfms v d a b m => some (v.unit, 4, sh d 15 + sh a 9 + sh b 3 + sh m 0)
  | .vfnma v d a b m => some (v.unit, 5, sh d 15 + sh a 9 + sh b 3 + sh m 0)
  | .vmin v d a b m => some (v.unit, 6, sh d 15 + sh a 9 + sh b 3 + sh m 0)
  | .vmax v d a b m => some (v.unit, 7, sh d 15 + sh a 9 + sh b 3 + sh m 0)
  | .vabs v d a m => some (v.unit, 8, sh d 15 + sh a 9 + sh m 0)
  | .vneg v d a m => some (v.unit, 9, sh d 15 + sh a 9 + sh m 0)
  | .vrcp v d a m => some (v.unit, 10, sh d 15 + sh a 9 + sh m 0)
  | .vrsq v d a m => some (v.unit, 11, sh d 15 + sh a 9 + sh m 0)
  | .vexp2 v d a m => some (v.unit, 12, sh d 15 + sh a 9 + sh m 0)
  | .vlog2 v d a m => some (v.unit, 13, sh d 15 + sh a 9 + sh m 0)
  | .viadd v d a b m => some (v.unit, 16, sh d 15 + sh a 9 + sh b 3 + sh m 0)
  | .visub v d a b m => some (v.unit, 17, sh d 15 + sh a 9 + sh b 3 + sh m 0)
  | .vimul v d a b m => some (v.unit, 18, sh d 15 + sh a 9 + sh b 3 + sh m 0)
  | .vimad v d a b m => some (v.unit, 19, sh d 15 + sh a 9 + sh b 3 + sh m 0)
  | .vimin v d a b m => some (v.unit, 20, sh d 15 + sh a 9 + sh b 3 + sh m 0)
  | .vimax v d a b m => some (v.unit, 21, sh d 15 + sh a 9 + sh b 3 + sh m 0)
  | .vand v d a b m => some (v.unit, 24, sh d 15 + sh a 9 + sh b 3 + sh m 0)
  | .vor v d a b m => some (v.unit, 25, sh d 15 + sh a 9 + sh b 3 + sh m 0)
  | .vxor v d a b m => some (v.unit, 26, sh d 15 + sh a 9 + sh b 3 + sh m 0)
  | .vnot v d a m => some (v.unit, 27, sh d 15 + sh a 9 + sh m 0)
  | .vshl v d a b m => some (v.unit, 28, sh d 15 + sh a 9 + sh b 3 + sh m 0)
  | .vshr v d a b m => some (v.unit, 29, sh d 15 + sh a 9 + sh b 3 + sh m 0)
  | .vsra v d a b m => some (v.unit, 30, sh d 15 + sh a 9 + sh b 3 + sh m 0)
  | .vcmp v c d a b m => some (v.unit, 32, sh c 18 + sh d 15 + sh a 9 + sh b 3 + sh m 0)
  | .vicmp v c d a b m => some (v.unit, 33, sh c 18 + sh d 15 + sh a 9 + sh b 3 + sh m 0)
  | .vsel v d a b k => some (v.unit, 34, sh d 15 + sh a 9 + sh b 3 + sh k 0)
  | .vcx v x a b m => some (v.unit, 35, sh x 15 + sh a 9 + sh b 3 + sh m 0)
  | .vcvt v d a p t m => some (v.unit, 40, sh d 15 + sh a 9 + sh p 7 + sh t 3 + sh m 0)
  | .vqnt v d a p f => some (v.unit, 41, sh d 15 + sh a 9 + sh p 5 + sh f 3)
  | .vdqnt v d a p m => some (v.unit, 42, sh d 15 + sh a 9 + sh p 5 + sh m 0)
  | .vhist v a m => some (v.unit, 43, sh a 9 + sh m 0)
  | .vhclrRd v d => some (v.unit, 44, sh d 15 + 1)
  | .vhclr v => some (v.unit, 44, 2)
  | .vhclrRdc v d => some (v.unit, 44, sh d 15 + 3)
  | .vtag v d a t m => some (v.unit, 45, sh d 15 + sh a 9 + sh t 3 + sh m 0)
  | .vreds v d a o m => some (v.unit, 48, sh d 15 + sh a 9 + sh o 3 + sh m 0)
  | .vscan v d a o m => some (v.unit, 49, sh d 15 + sh a 9 + sh o 3 + sh m 0)
  | .vperm v d a b m => some (v.unit, 50, sh d 15 + sh a 9 + sh b 3 + sh m 0)
  | .vshuf v d a b p => some (v.unit, 51, sh d 15 + sh a 9 + sh b 3 + sh p 0)
  | .vbcastS v d a t => some (v.unit, 52, sh d 15 + sh a 9 + sh t 3)
  | .vbcastL v d a k => some (v.unit, 52, sh d 15 + sh a 9 + sh k 3 + 1)
  | .viota v d a b m => some (v.unit, 53, sh d 15 + sh a 9 + sh b 3 + sh m 0)
  | .vmov v d a m => some (v.unit, 54, sh d 15 + sh a 9 + sh m 0)
  | .vxfer v d a m => some (v.unit, 55, sh d 15 + sh a 9 + sh m 0)
  | .mlog v d a b o => some (v.unit, 56, sh d 15 + sh a 9 + sh b 3 + sh o 0)
  | .mpop v d a m => some (v.unit, 57, sh d 15 + sh a 9 + sh m 0)
  | .mffs v d a m => some (v.unit, 58, sh d 15 + sh a 9 + sh m 0)
  | .mmovs v d a => some (v.unit, 59, sh d 15 + sh a 9)
  | .mfroms v d a => some (v.unit, 60, sh d 15 + sh a 9)
  | .ldv v d a t m => some (v.unit, 64, sh d 15 + sh a 9 + sh t 3 + sh m 0)
  | .stv v a b m => some (v.unit, 65, sh a 9 + sh b 3 + sh m 0)
  | .ldvs v d a b m => some (v.unit, 66, sh d 15 + sh a 9 + sh b 3 + sh m 0)
  | .gath v d a b m => some (v.unit, 67, sh d 15 + sh a 9 + sh b 3 + sh m 0)
  | .scat v d a b m => some (v.unit, 68, sh d 15 + sh a 9 + sh b 3 + sh m 0)
  | _ => none

/-- R142: unit 3. The unit, OPC and operand bits of an operation, as the sum of R139. -/
def encodeM : Instr → Option (Nat × Nat × Nat)
  | .tcfg d a => some (3, 0, sh d 15 + sh a 9)
  | .tcfgRd d a => some (3, 0, sh d 15 + sh a 9 + 1)
  | .tzero d => some (3, 1, sh d 15)
  | .tld d a b n => some (3, 2, sh d 15 + sh a 9 + sh b 3 + sh n 0)
  | .tst d a b n => some (3, 3, sh d 15 + sh a 9 + sh b 3 + sh n 0)
  | .trwr d a b => some (3, 4, sh d 15 + sh a 9 + sh b 3)
  | .trrd d a b => some (3, 5, sh d 15 + sh a 9 + sh b 3)
  | .tcwr d a b => some (3, 6, sh d 15 + sh a 9 + sh b 3)
  | .tcrd d a b => some (3, 7, sh d 15 + sh a 9 + sh b 3)
  | .tmsk d a => some (3, 8, sh d 15 + sh a 9)
  | .tmskRd d a => some (3, 8, sh d 15 + sh a 9 + 1)
  | .mma d a b n => some (3, 16, sh d 15 + sh a 9 + sh b 3 + sh n 0)
  | .mmac d a b n => some (3, 17, sh d 15 + sh a 9 + sh b 3 + sh n 0)
  | .mmab d a b n => some (3, 18, sh d 15 + sh a 9 + sh b 3 + sh n 0)
  | .aczF d => some (3, 20, sh d 15)
  | .aczI d => some (3, 20, sh d 15 + 1)
  | .acrd d a b => some (3, 21, sh d 15 + sh a 9 + sh b 3)
  | .acwr d a b => some (3, 22, sh d 15 + sh a 9 + sh b 3)
  | .accvt d a n => some (3, 23, sh d 15 + sh a 9 + sh n 0)
  | .rkdecl d v k r => some (3, 24, sh d 15 + sh v 7 + sh k 3 + sh r 0)
  | .rkrel d => some (3, 25, sh d 15)
  | .rkins d a b m => some (3, 26, sh d 15 + sh a 9 + sh b 3 + sh m 0)
  | .rkacc d a n => some (3, 27, sh d 15 + sh a 9 + sh n 0)
  | .rkmerge d a => some (3, 28, sh d 15 + sh a 9)
  | .rkst d a n => some (3, 29, sh d 15 + sh a 9 + sh n 0)
  | .rkld d a => some (3, 30, sh d 15 + sh a 9)
  | .rkth d a => some (3, 31, sh d 15 + sh a 9)
  | .rklen d a => some (3, 32, sh d 15 + sh a 9)
  | _ => none

/-- R143: units 4 and 5. The unit, OPC and operand bits of an operation, as the sum of R139. -/
def encodeC : Instr → Option (Nat × Nat × Nat)
  | .cdim e l a b => some (e.unit, 0, sh l 15 + sh a 9 + sh b 3)
  | .cset e t a b f => some (e.unit, 1, sh t 15 + sh a 9 + sh b 3 + sh f 0)
  | .clab e l => some (e.unit, 2, sh l 0)
  | .cpy e r q h a s => some (e.unit, 3, sh r 18 + sh q 17 + sh h 15 + sh a 9 + sh s 0)
  | .cwm e h a b => some (e.unit, 4, sh h 15 + sh a 9 + sh b 3)
  | .cwmOff e h => some (e.unit, 4, sh h 15 + 1)
  | .csync e h a => some (e.unit, 5, sh h 15 + sh a 9)
  | .csyncBs e h a => some (e.unit, 5, sh h 15 + sh a 9 + 1)
  | .ccan e h => some (e.unit, 6, sh h 15)
  | .ccanAll e h => some (e.unit, 6, sh h 15 + 1)
  | .cqry e d h i => some (e.unit, 7, sh d 15 + sh h 3 + sh i 0)
  | .csend e r h a b s => some (e.unit, 8, sh r 17 + sh h 15 + sh a 9 + sh b 3 + sh s 0)
  | _ => none

/-- The unit, OPC and 21 operand bits of an operation that has an encoding (R123, R139 to R143); a happening has none. -/
def encodeFields (i : Instr) : Option (Nat × Nat × Nat) :=
  (encodeS0 i <|> encodeS1 i <|> encodeV i <|> encodeM i <|> encodeC i)

/-- R139: a slot's value from G, UNIT, OPC and operand bits. -/
def joinSlot (g : Bool) (u o x : Nat) : W32 :=
  BitVec.ofNat 32 (b2n g * 2 ^ 31 + u * 2 ^ 28 + o * 2 ^ 21 + x)

/-- R139: the word of a slot that holds an encoded operation. -/
def encodeSlot (s : Slot) : Option W32 :=
  (encodeFields s.op).map fun (u, o, x) => joinSlot s.g u o x

/-- R139: the word of an operation in a slot whose G bit is 0. -/
def encode (i : Instr) : Option W32 := encodeSlot ⟨false, i⟩

/-- R122: the bundle of four slot words, slot 0 at the lowest address. -/
def joinBundle (w0 w1 w2 w3 : W32) : BitVec 128 := w3 ++ w2 ++ w1 ++ w0

/-- The operation the decoder reads from a row of the opcode table: each row with an encoding is one 32-bit slot word
whose bits the table numbers as R123 does. -/
def decodeTableWord (nbits w : Nat) : Option Instr :=
  if nbits = 32 then
    match decodeSlot (BitVec.ofNat 32 w) with
    | .ok s => some s.op
    | .error _ => none
  else none

end Sys2Proof
end

