-- ==== Sys2Proof/Machine/Terrace.lean ====
section
/-! DEFINITION. The Terrace (R206, R236, R237): the ranking of (value, index) pairs, offers to the lists of a ranked
accumulator, exported thresholds, and the decision of MMAB (R234). -/

namespace Sys2Proof.Machine

/-- R206, R236: whether pair (v, p) ranks strictly above (w, q). `int` compares signed I32 values, else FP32; `small`
ranks the smaller value first. -/
def rankAbove (int small : Bool) (v p w q : Nat) : Bool :=
  if int then
    let a := signExt v 32
    let b := signExt w 32
    if a != b then (if small then decide (a < b) else decide (b < a)) else decide (p < q)
  else
    let a := fp32.decode v
    let b := fp32.decode w
    if a.isNan then b.isNan && decide (p < q)
    else if b.isNan then true
    else match cmpNum a b with
      | .eq => decide (p < q)
      | .lt => small
      | .gt => !small

/-- R236: an offered value made canonical. -/
def canonical (int : Bool) (v : Nat) : Nat :=
  if int then v
  else match fp32.decode v with
    | .nan _ => 0x7FC00000
    | _ => if v == 0x80000000 then 0 else v

/-- Put a pair in its place among ranked pairs. -/
def insertPair (int small : Bool) (x : Nat × Nat) : List (Nat × Nat) → List (Nat × Nat)
  | [] => [x]
  | y :: r => if rankAbove int small x.1 x.2 y.1 y.2 then x :: y :: r else y :: insertPair int small x r

/-- R236: a list after an offer; a pair already listed counts once. -/
def offerPairs (int small : Bool) (k : Nat) (v x : Nat) (l : List (Nat × Nat)) : List (Nat × Nat) :=
  let p := (canonical int v, x)
  if l.contains p then l else (insertPair int small p l).take k

/-- R223: the pairs of list `i`. -/
def Acc.pairs (a : Acc) (i : Nat) : List (Nat × Nat) :=
  let row := a.words.getD i []
  (List.range (a.len.getD i 0)).map (fun p => ((row.getD (2 * p) 0).toNat, (row.getD (2 * p + 1) 0).toNat))

/-- R223: an accumulator with list `i` replaced. -/
def Acc.setPairs (i : Nat) (l : List (Nat × Nat)) (a : Acc) : Acc :=
  let ws := l.flatMap (fun p => [BitVec.ofNat 32 p.1, BitVec.ofNat 32 p.2])
  { a with len := a.len.set i l.length, words := a.words.set i (ws ++ List.replicate (32 - ws.length) 0) }

/-- R236: Offer(an, i, v, x). -/
def Acc.offer (i v x : Nat) (a : Acc) : Acc := a.setPairs i (offerPairs a.vt a.dir a.k v x (a.pairs i))

/-- R237: the exported threshold of row `i`. -/
def Acc.threshold (a : Acc) (i : Nat) : Nat :=
  if a.len.getD i 0 == a.k then ((a.pairs i).getD (a.k - 1) (0, 0)).1
  else if a.vt then (if a.dir then 0x7FFFFFFF else 0x80000000)
  else (if a.dir then 0x7F800000 else 0xFF800000)

/-- R234: whether the bound lies beyond the threshold of a row; false when either is NaN. -/
def beyond (int small : Bool) (beta th : Nat) : Bool :=
  if int then
    if small then decide (signExt th 32 < signExt beta 32) else decide (signExt beta 32 < signExt th 32)
  else
    let b := fp32.decode beta
    let t := fp32.decode th
    !b.isNan && !t.isNan && cmpNum b t == (if small then .gt else .lt)

/-- R234: whether an MMAB with bound `beta` skips, its active rows being `rows`. -/
def mmabSkips (a : Acc) (rows : List Nat) (beta : Nat) : Bool :=
  a.kind == .ranked && !(!a.vt && (fp32.decode beta).isNan) && rows.all (fun i => beyond a.vt a.dir beta (a.threshold i))

end Sys2Proof.Machine
end

