-- ==== Sys2Proof/Machine/Operands.lean ====
section
/-! DEFINITION. The operands of every operation (R133 to R135, R150, R151, R194, R198, R243): which registers each field names,
immediates (R128), slot faults (R346, R347), dependences (R130), readiness (R131, R225, R226), and the frame in which every
meaning runs. -/

namespace Sys2Proof.Machine

/-! ### Fields and immediates -/

/-- R128: the raw immediate of a field of `w` bits, widened by XB in a bundle with a header. -/
def immZ (w f : Nat) (x : SlotCtx) : Nat := if x.hdr then x.xb.toNat * 2 ^ w + f else f

/-- R128: the signed immediate of a field of `w` bits. -/
def immS (w f : Nat) (x : SlotCtx) : Int := signExt (immZ w f x) (if x.hdr then w + 4 else w)

/-- What a field of an operation names. -/
inductive Opnd where
  /-- a scalar source, 0 to 39 -/
  | sr (x : Nat)
  /-- a scalar destination -/
  | sd (x : Nat)
  /-- a named scalar register that is read and written -/
  | sn (x : Nat)
  /-- a vector source read in a cluster -/
  | vr (v : Cluster) (x : Nat)
  /-- a vector destination of a cluster: own named or the next own age position -/
  | vd (v : Cluster) (x : Nat)
  /-- an own named vector register that is read and written -/
  | vn (v : Cluster) (x : Nat)
  /-- VXFER's destination in the other cluster -/
  | vx (v : Cluster) (x : Nat)
  /-- VCX's pair: registers x and x + 8 of the cluster -/
  | vc (v : Cluster) (x : Nat)
  /-- a vector destination of unit M: named registers of both clusters or the next age position of either -/
  | ad (x : Nat)
  /-- a lane mask field of three bits -/
  | km (v : Cluster) (x : Nat)
  /-- a mask operand, 0 to 15 -/
  | kr (v : Cluster) (x : Nat)
  /-- an own mask as destination, 1 to 7 -/
  | kd (v : Cluster) (x : Nat)
  /-- a mask that POPM writes -/
  | kp (v : Cluster) (x : Nat)
  /-- a predicate source -/
  | pr (x : Nat)
  /-- a predicate destination -/
  | pd (x : Nat)
  /-- a control register that is read -/
  | cr (n : Nat)
  /-- a control register that is written -/
  | cw (n : Nat)
  /-- a tile, 0 to 7 -/
  | tl (x : Nat)
  /-- an accumulator, 8 to 11 -/
  | ac (x : Nat)
  /-- a row or column mask, 12 to 19 -/
  | mx (x : Nat)
  /-- a tile configuration register, 20 to 27 -/
  | tc (x : Nat)
  deriving DecidableEq, Repr

/-- R169: the registers that PUSHM reads (`push`) or POPM writes; a range that is invalid names none. -/
def regRange (push : Bool) (f a b : Nat) : List Opnd :=
  if b < a || (if f < 3 then 15 else 7) < b then []
  else ((List.range (b - a + 1)).map (fun i => a + i)).map (fun r =>
    match f with
    | 0 => if push then .sr r else .sd r
    | 1 => if push then .vr .va r else .ad r
    | 2 => if push then .vr .va (32 + r) else .ad (32 + r)
    | 3 => if push then .km .va r else .kp .va r
    | _ => if push then .km .vb r else .kp .vb r)

/-- What the fields of an operation name, given the slot's extension (R128, R231). DESIGN CHOICE (assumption 55): a control register that an
operation reads without naming it is no operand, so it is in no dependence (R130). -/
def operands (x : SlotCtx) : Instr → List Opnd
  | .nop _ => []
  | .li d _ => [.sd d.toNat]
  | .lih d _ => [.sn d.toNat]
  | .mov d a => [.sd d.toNat, .sr a.toNat]
  | .add d a b => [.sd d.toNat, .sr a.toNat, .sr b.toNat]
  | .addi d a _ => [.sd d.toNat, .sr a.toNat]
  | .sub d a b => [.sd d.toNat, .sr a.toNat, .sr b.toNat]
  | .mul d a b => [.sd d.toNat, .sr a.toNat, .sr b.toNat]
  | .mulhs d a b => [.sd d.toNat, .sr a.toNat, .sr b.toNat]
  | .mulhu d a b => [.sd d.toNat, .sr a.toNat, .sr b.toNat]
  | .divs d a b => [.sd d.toNat, .sr a.toNat, .sr b.toNat]
  | .divu d a b => [.sd d.toNat, .sr a.toNat, .sr b.toNat]
  | .rems d a b => [.sd d.toNat, .sr a.toNat, .sr b.toNat]
  | .remu d a b => [.sd d.toNat, .sr a.toNat, .sr b.toNat]
  | .and d a b => [.sd d.toNat, .sr a.toNat, .sr b.toNat]
  | .andi d a _ => [.sd d.toNat, .sr a.toNat]
  | .or d a b => [.sd d.toNat, .sr a.toNat, .sr b.toNat]
  | .ori d a _ => [.sd d.toNat, .sr a.toNat]
  | .xor d a b => [.sd d.toNat, .sr a.toNat, .sr b.toNat]
  | .xori d a _ => [.sd d.toNat, .sr a.toNat]
  | .andn d a b => [.sd d.toNat, .sr a.toNat, .sr b.toNat]
  | .shl d a b => [.sd d.toNat, .sr a.toNat, .sr b.toNat]
  | .shli d a _ => [.sd d.toNat, .sr a.toNat]
  | .shr d a b => [.sd d.toNat, .sr a.toNat, .sr b.toNat]
  | .shri d a _ => [.sd d.toNat, .sr a.toNat]
  | .sra d a b => [.sd d.toNat, .sr a.toNat, .sr b.toNat]
  | .srai d a _ => [.sd d.toNat, .sr a.toNat]
  | .ror d a b => [.sd d.toNat, .sr a.toNat, .sr b.toNat]
  | .clz d a => [.sd d.toNat, .sr a.toNat]
  | .ctz d a => [.sd d.toNat, .sr a.toNat]
  | .popc d a => [.sd d.toNat, .sr a.toNat]
  | .mins d a b => [.sd d.toNat, .sr a.toNat, .sr b.toNat]
  | .maxs d a b => [.sd d.toNat, .sr a.toNat, .sr b.toNat]
  | .minu d a b => [.sd d.toNat, .sr a.toNat, .sr b.toNat]
  | .maxu d a b => [.sd d.toNat, .sr a.toNat, .sr b.toNat]
  | .sel d a b p => [.sd d.toNat, .sr a.toNat, .sr b.toNat, .pr p.toNat]
  | .cmp _ p a b => [.pd p.toNat, .sr a.toNat, .sr b.toNat]
  | .cmpi _ p a _ => [.pd p.toNat, .sr a.toNat]
  | .plog d a b _ => [.pd d.toNat, .pr a.toNat, .pr b.toNat]
  | .agen d a b _ => [.sd d.toNat, .sr a.toNat, .sr b.toNat]
  | .bxt d a b _ => [.sd d.toNat, .sr a.toNat, .sr b.toNat]
  | .bin d a b => [.sn d.toNat, .sr a.toNat, .sr b.toNat]
  | .fadds d a b => [.sd d.toNat, .sr a.toNat, .sr b.toNat]
  | .fmuls d a b => [.sd d.toNat, .sr a.toNat, .sr b.toNat]
  | .ffmas d a b => [.sn d.toNat, .sr a.toNat, .sr b.toNat]
  | .fcmps _ p a b => [.pd p.toNat, .sr a.toNat, .sr b.toNat]
  | .fcvts d a _ => [.sd d.toNat, .sr a.toNat]
  | .csrr d n => [.sd d.toNat, .cr (immZ 9 n.toNat x)]
  | .csrw a n => [.sr a.toNat, .cw (immZ 9 n.toNat x)]
  | .crd d _ => [.sd d.toNat]
  | .pushm a b f => regRange true f.toNat a.toNat b.toNat
  | .popm a b f => regRange false f.toNat a.toNat b.toNat
  | .br _ => []
  | .call d _ => [.sd d.toNat]
  | .callr d a => [.sd d.toNat, .sr a.toNat]
  | .ret a => [.sr a.toNat]
  | .jr a _ => [.sr a.toNat]
  | .loop _ a => [.sr a.toNat]
  | .loopImm _ _ => []
  | .loopx _ => []
  | .repv _ a => [.sr a.toNat]
  | .repvImm _ _ => []
  | .layer _ => []
  | .lret => []
  | .tspawn a => [.sr a.toNat]
  | .texit a => [.sr a.toNat]
  | .tjoin d a => [.sd d.toNat, .sr a.toNat]
  | .waitSw _ a b => [.sr a.toNat, .sr b.toNat]
  | .waitBs _ a b => [.sr a.toNat, .sr b.toNat]
  | .yield => []
  | .hwin _ => []
  | .opsel _ => []
  | .fidset _ => []
  | .psub a b _ => [.sr a.toNat, .sr b.toNat]
  | .rdtick d => [.sd d.toNat]
  | .trap _ => []
  | .svc _ => []
  | .eret => []
  | .tlbir a => [.sr a.toNat]
  | .tlbirAll _ => []
  | .ldbS d a _ _ => [.sd d.toNat, .sr a.toNat]
  | .ldbU d a _ _ => [.sd d.toNat, .sr a.toNat]
  | .ldhS d a _ _ => [.sd d.toNat, .sr a.toNat]
  | .ldhU d a _ _ => [.sd d.toNat, .sr a.toNat]
  | .ldwS d a _ _ => [.sd d.toNat, .sr a.toNat]
  | .ldwU d a _ _ => [.sd d.toNat, .sr a.toNat]
  | .lddS d a _ _ => [.sd d.toNat, .sr a.toNat]
  | .lddU d a _ _ => [.sd d.toNat, .sr a.toNat]
  | .stb d a _ _ => [.sr d.toNat, .sr a.toNat]
  | .sth d a _ _ => [.sr d.toNat, .sr a.toNat]
  | .stw d a _ _ => [.sr d.toNat, .sr a.toNat]
  | .std d a _ _ => [.sr d.toNat, .sr a.toNat]
  | .cas d a b _ _ => [.sn d.toNat, .sr a.toNat, .sr b.toNat]
  | .fence _ _ => []
  | .synci => []
  | .synca => []
  | .syncaAll => []
  | .amoAdd d a b _ _ => [.sd d.toNat, .sr a.toNat, .sr b.toNat]
  | .amoAnd d a b _ _ => [.sd d.toNat, .sr a.toNat, .sr b.toNat]
  | .amoOr d a b _ _ => [.sd d.toNat, .sr a.toNat, .sr b.toNat]
  | .amoXor d a b _ _ => [.sd d.toNat, .sr a.toNat, .sr b.toNat]
  | .amoMin d a b _ _ => [.sd d.toNat, .sr a.toNat, .sr b.toNat]
  | .amoMax d a b _ _ => [.sd d.toNat, .sr a.toNat, .sr b.toNat]
  | .amoMinu d a b _ _ => [.sd d.toNat, .sr a.toNat, .sr b.toNat]
  | .amoMaxu d a b _ _ => [.sd d.toNat, .sr a.toNat, .sr b.toNat]
  | .amoSwap d a b _ _ => [.sd d.toNat, .sr a.toNat, .sr b.toNat]
  | .amoFadd32 d a b _ => [.sd d.toNat, .sr a.toNat, .sr b.toNat]
  | .bars _ a b => [.sr a.toNat, .sr b.toNat]
  | .bara d a b => [.sd d.toNat, .sr a.toNat, .sr b.toNat]
  | .barrt a => [.sr a.toNat]
  | .barn _ _ => []
  | .barnA _ _ => []
  | .copen d a b => [.sd d.toNat, .sr a.toNat, .sr b.toNat]
  | .chold d a b => [.sd d.toNat, .sr a.toNat, .sr b.toNat]
  | .cclose a => [.sr a.toNat]
  | .cstat d a => [.sd d.toNat, .sr a.toNat]
  | .npost d a => [.sd d.toNat, .sr a.toNat]
  | .vadd v d a b m => [.vd v d.toNat, .vr v a.toNat, .vr v b.toNat, .km v m.toNat]
  | .vsub v d a b m => [.vd v d.toNat, .vr v a.toNat, .vr v b.toNat, .km v m.toNat]
  | .vmul v d a b m => [.vd v d.toNat, .vr v a.toNat, .vr v b.toNat, .km v m.toNat]
  | .vfma v d a b m => [.vn v d.toNat, .vr v a.toNat, .vr v b.toNat, .km v m.toNat]
  | .vfms v d a b m => [.vn v d.toNat, .vr v a.toNat, .vr v b.toNat, .km v m.toNat]
  | .vfnma v d a b m => [.vn v d.toNat, .vr v a.toNat, .vr v b.toNat, .km v m.toNat]
  | .vmin v d a b m => [.vd v d.toNat, .vr v a.toNat, .vr v b.toNat, .km v m.toNat]
  | .vmax v d a b m => [.vd v d.toNat, .vr v a.toNat, .vr v b.toNat, .km v m.toNat]
  | .vabs v d a m => [.vd v d.toNat, .vr v a.toNat, .km v m.toNat]
  | .vneg v d a m => [.vd v d.toNat, .vr v a.toNat, .km v m.toNat]
  | .vrcp v d a m => [.vd v d.toNat, .vr v a.toNat, .km v m.toNat]
  | .vrsq v d a m => [.vd v d.toNat, .vr v a.toNat, .km v m.toNat]
  | .vexp2 v d a m => [.vd v d.toNat, .vr v a.toNat, .km v m.toNat]
  | .vlog2 v d a m => [.vd v d.toNat, .vr v a.toNat, .km v m.toNat]
  | .viadd v d a b m => [.vd v d.toNat, .vr v a.toNat, .vr v b.toNat, .km v m.toNat]
  | .visub v d a b m => [.vd v d.toNat, .vr v a.toNat, .vr v b.toNat, .km v m.toNat]
  | .vimul v d a b m => [.vd v d.toNat, .vr v a.toNat, .vr v b.toNat, .km v m.toNat]
  | .vimad v d a b m => [.vn v d.toNat, .vr v a.toNat, .vr v b.toNat, .km v m.toNat]
  | .vimin v d a b m => [.vd v d.toNat, .vr v a.toNat, .vr v b.toNat, .km v m.toNat]
  | .vimax v d a b m => [.vd v d.toNat, .vr v a.toNat, .vr v b.toNat, .km v m.toNat]
  | .vand v d a b m => [.vd v d.toNat, .vr v a.toNat, .vr v b.toNat, .km v m.toNat]
  | .vor v d a b m => [.vd v d.toNat, .vr v a.toNat, .vr v b.toNat, .km v m.toNat]
  | .vxor v d a b m => [.vd v d.toNat, .vr v a.toNat, .vr v b.toNat, .km v m.toNat]
  | .vnot v d a m => [.vd v d.toNat, .vr v a.toNat, .km v m.toNat]
  | .vshl v d a b m => [.vd v d.toNat, .vr v a.toNat, .vr v b.toNat, .km v m.toNat]
  | .vshr v d a b m => [.vd v d.toNat, .vr v a.toNat, .vr v b.toNat, .km v m.toNat]
  | .vsra v d a b m => [.vd v d.toNat, .vr v a.toNat, .vr v b.toNat, .km v m.toNat]
  | .vcmp v _ d a b m => [.kd v d.toNat, .vr v a.toNat, .vr v b.toNat, .km v m.toNat]
  | .vicmp v _ d a b m => [.kd v d.toNat, .vr v a.toNat, .vr v b.toNat, .km v m.toNat]
  | .vsel v d a b k => [.vd v d.toNat, .vr v a.toNat, .vr v b.toNat, .km v k.toNat]
  | .vcx v _ a b m => [.vc v a.toNat, .vc v b.toNat, .km v m.toNat]
  | .vcvt v d a _ _ m => [.vd v d.toNat, .vr v a.toNat, .km v m.toNat]
  | .vqnt v d a _ _ => [.vn v d.toNat, .vr v a.toNat]
  | .vdqnt v d a _ m => [.vd v d.toNat, .vr v a.toNat, .km v m.toNat]
  | .vhist v a m => [.vr v a.toNat, .km v m.toNat]
  | .vhclrRd v d => [.vd v d.toNat]
  | .vhclr _ => []
  | .vhclrRdc v d => [.vd v d.toNat]
  | .vtag v d a _ m => [.vd v d.toNat, .vr v a.toNat, .km v m.toNat]
  | .vreds v d a _ m => [.sd d.toNat, .vr v a.toNat, .km v m.toNat]
  | .vscan v d a _ m => [.vd v d.toNat, .vr v a.toNat, .km v m.toNat]
  | .vperm v d a b m => [.vd v d.toNat, .vr v a.toNat, .vr v b.toNat, .km v m.toNat]
  | .vshuf v d a b p => [.vd v d.toNat, .vr v a.toNat] ++ (if p.toNat < 6 then [.vr v b.toNat] else [])
  | .vbcastS v d a _ => [.vd v d.toNat, .sr a.toNat]
  | .vbcastL v d a _ => [.vd v d.toNat, .vr v a.toNat]
  | .viota v d a b m => [.vd v d.toNat, .sr a.toNat, .sr b.toNat, .km v m.toNat]
  | .vmov v d a m => [.vd v d.toNat, .vr v a.toNat, .km v m.toNat]
  | .vxfer v d a m => [.vx v d.toNat, .vr v a.toNat, .km v m.toNat]
  | .mlog v d a b _ => [.kd v d.toNat, .kr v a.toNat, .kr v b.toNat]
  | .mpop v d a m => [.sd d.toNat, .kr v a.toNat, .km v m.toNat]
  | .mffs v d a m => [.sd d.toNat, .kr v a.toNat, .km v m.toNat]
  | .mmovs v d a => [.sd d.toNat, .kr v a.toNat]
  | .mfroms v d a => [.kd v d.toNat, .sr a.toNat]
  | .ldv v d a _ m => [.vd v d.toNat, .sr a.toNat, .km v m.toNat]
  | .stv v a b m => [.sr a.toNat, .vr v b.toNat, .km v m.toNat]
  | .ldvs v d a b m => [.vd v d.toNat, .sr a.toNat, .sr b.toNat, .km v m.toNat]
  | .gath v d a b m => [.vd v d.toNat, .sr a.toNat, .vr v b.toNat, .km v m.toNat]
  | .scat v d a b m => [.sr a.toNat, .vr v b.toNat, .vr v d.toNat, .km v m.toNat]
  | .tcfg d a => [.tc d.toNat, .sr a.toNat]
  | .tcfgRd d a => [.sd d.toNat, .tc a.toNat]
  | .tzero d => [.tl d.toNat]
  | .tld d a b _ => [.tl d.toNat, .sr a.toNat, .sr b.toNat]
  | .tst d a b _ => [.tl d.toNat, .sr a.toNat, .sr b.toNat]
  | .trwr d a b => [.tl d.toNat, .vr .va a.toNat, .sr b.toNat]
  | .trrd d a b => [.ad d.toNat, .tl a.toNat, .sr b.toNat]
  | .tcwr d a b => [.tl d.toNat, .vr .va a.toNat, .sr b.toNat]
  | .tcrd d a b => [.ad d.toNat, .tl a.toNat, .sr b.toNat]
  | .tmsk d a => [.mx d.toNat, .sr a.toNat]
  | .tmskRd d a => [.sd d.toNat, .mx a.toNat]
  | .mma d a b _ => [.ac d.toNat, .tl a.toNat, .tl b.toNat, .sr x.xb.toNat]
  | .mmac d a b _ => [.ac d.toNat, .tl a.toNat, .tl b.toNat, .sr x.xb.toNat]
  | .mmab d a b _ => [.ac d.toNat, .tl a.toNat, .tl b.toNat, .sr x.xb.toNat]
  | .aczF d => [.ac d.toNat]
  | .aczI d => [.ac d.toNat]
  | .acrd d a b => [.ad d.toNat, .ac a.toNat, .sr b.toNat]
  | .acwr d a b => [.ac d.toNat, .vr .va a.toNat, .sr b.toNat]
  | .accvt d a _ => [.tl d.toNat, .ac a.toNat]
  | .rkdecl d _ _ _ => [.ac d.toNat]
  | .rkrel d => [.ac d.toNat]
  | .rkins d a b m => [.ac d.toNat, .vr .va a.toNat, .vr .va b.toNat, .km (if a.toNat < 32 then .va else .vb) m.toNat]
  | .rkacc d a _ => [.ac d.toNat, .ac a.toNat, .sr x.xb.toNat]
  | .rkmerge d a => [.ac d.toNat, .sr a.toNat]
  | .rkst d a _ => [.ac d.toNat, .sr a.toNat]
  | .rkld d a => [.ac d.toNat, .sr a.toNat]
  | .rkth d a => [.ad d.toNat, .ac a.toNat]
  | .rklen d a => [.ad d.toNat, .ac a.toNat]
  | .cdim _ l a b => .sr a.toNat :: (if l.toNat == 0 then [] else [.sr b.toNat])
  | .cset _ _ a b _ => [.sr a.toNat, .sr b.toNat]
  | .clab _ _ => []
  | .cpy _ _ _ _ a _ => [.sr a.toNat]
  | .cwm _ _ a b => [.sr a.toNat, .sr b.toNat]
  | .cwmOff _ _ => []
  | .csync _ _ a => [.sr a.toNat]
  | .csyncBs _ _ a => [.sr a.toNat]
  | .ccan _ _ => []
  | .ccanAll _ _ => []
  | .cqry _ d _ _ => [.sd d.toNat]
  | .csend _ _ _ a b _ => [.sr a.toNat, .sr b.toNat]
  | _ => []

/-- R177: the value of a stepped specifier raised by `off`: named registers of either cluster step. -/
def stepField (off : Nat) (f : BitVec 6) : BitVec 6 := if f.toNat % 32 < 16 then BitVec.ofNat 6 (f.toNat + off) else f

/-- R177: an operation of VA or VB with its stepped specifiers raised by `off`. -/
def stepInstr (off : Nat) : Instr → Instr
  | .vadd v d a b m => .vadd v (stepField off d) (stepField off a) (stepField off b) m
  | .vsub v d a b m => .vsub v (stepField off d) (stepField off a) (stepField off b) m
  | .vmul v d a b m => .vmul v (stepField off d) (stepField off a) (stepField off b) m
  | .vfma v d a b m => .vfma v (stepField off d) (stepField off a) (stepField off b) m
  | .vfms v d a b m => .vfms v (stepField off d) (stepField off a) (stepField off b) m
  | .vfnma v d a b m => .vfnma v (stepField off d) (stepField off a) (stepField off b) m
  | .vmin v d a b m => .vmin v (stepField off d) (stepField off a) (stepField off b) m
  | .vmax v d a b m => .vmax v (stepField off d) (stepField off a) (stepField off b) m
  | .vabs v d a m => .vabs v (stepField off d) (stepField off a) m
  | .vneg v d a m => .vneg v (stepField off d) (stepField off a) m
  | .vrcp v d a m => .vrcp v (stepField off d) (stepField off a) m
  | .vrsq v d a m => .vrsq v (stepField off d) (stepField off a) m
  | .vexp2 v d a m => .vexp2 v (stepField off d) (stepField off a) m
  | .vlog2 v d a m => .vlog2 v (stepField off d) (stepField off a) m
  | .viadd v d a b m => .viadd v (stepField off d) (stepField off a) (stepField off b) m
  | .visub v d a b m => .visub v (stepField off d) (stepField off a) (stepField off b) m
  | .vimul v d a b m => .vimul v (stepField off d) (stepField off a) (stepField off b) m
  | .vimad v d a b m => .vimad v (stepField off d) (stepField off a) (stepField off b) m
  | .vimin v d a b m => .vimin v (stepField off d) (stepField off a) (stepField off b) m
  | .vimax v d a b m => .vimax v (stepField off d) (stepField off a) (stepField off b) m
  | .vand v d a b m => .vand v (stepField off d) (stepField off a) (stepField off b) m
  | .vor v d a b m => .vor v (stepField off d) (stepField off a) (stepField off b) m
  | .vxor v d a b m => .vxor v (stepField off d) (stepField off a) (stepField off b) m
  | .vnot v d a m => .vnot v (stepField off d) (stepField off a) m
  | .vshl v d a b m => .vshl v (stepField off d) (stepField off a) (stepField off b) m
  | .vshr v d a b m => .vshr v (stepField off d) (stepField off a) (stepField off b) m
  | .vsra v d a b m => .vsra v (stepField off d) (stepField off a) (stepField off b) m
  | .vcmp v c d a b m => .vcmp v c d (stepField off a) (stepField off b) m
  | .vicmp v c d a b m => .vicmp v c d (stepField off a) (stepField off b) m
  | .vsel v d a b k => .vsel v (stepField off d) (stepField off a) (stepField off b) k
  | .vcx v x a b m => .vcx v x (stepField off a) (stepField off b) m
  | .vcvt v d a p t m => .vcvt v (stepField off d) (stepField off a) p t m
  | .vqnt v d a p f => .vqnt v (stepField off d) (stepField off a) p f
  | .vdqnt v d a p m => .vdqnt v (stepField off d) (stepField off a) p m
  | .vhist v a m => .vhist v (stepField off a) m
  | .vhclrRd v d => .vhclrRd v (stepField off d)
  | .vhclrRdc v d => .vhclrRdc v (stepField off d)
  | .vtag v d a t m => .vtag v (stepField off d) (stepField off a) t m
  | .vreds v d a o m => .vreds v d (stepField off a) o m
  | .vscan v d a o m => .vscan v (stepField off d) (stepField off a) o m
  | .vperm v d a b m => .vperm v (stepField off d) (stepField off a) (stepField off b) m
  | .vshuf v d a b p => .vshuf v (stepField off d) (stepField off a) (if p.toNat < 6 then stepField off b else b) p
  | .vbcastS v d a t => .vbcastS v (stepField off d) a t
  | .vbcastL v d a k => .vbcastL v (stepField off d) (stepField off a) k
  | .viota v d a b m => .viota v (stepField off d) a b m
  | .vmov v d a m => .vmov v (stepField off d) (stepField off a) m
  | .vxfer v d a m => .vxfer v (stepField off d) (stepField off a) m
  | .ldv v d a t m => .ldv v (stepField off d) a t m
  | .stv v a b m => .stv v a (stepField off b) m
  | .ldvs v d a b m => .ldvs v (stepField off d) a b m
  | .gath v d a b m => .gath v (stepField off d) a (stepField off b) m
  | .scat v d a b m => .scat v (stepField off d) a (stepField off b) m
  | i => i

/-- R177: whether a stepped specifier of an operation passes v15 of its file. -/
def stepPasses (off : Nat) (x : SlotCtx) (i : Instr) : Bool :=
  (operands x i).any (fun o =>
    match o with
    | .vr _ f => f % 32 < 16 && 15 < f % 32 + off
    | .vd _ f => f < 16 && 15 < f + off
    | .vn _ f => f < 16 && 15 < f + off
    | .vx _ f => 32 ≤ f && f < 48 && 15 < f - 32 + off
    | .vc _ f => f < 16 && 15 < f + off
    | _ => false)

/-! ### The use of XB (R128) -/

/-- R128: what an operation uses XB for: all four bits, the low `n` bits, bit `n − 1` alone, or nothing. -/
inductive XbUse where
  | any
  | low (n : Nat)
  | only (n : Nat)
  | none
  deriving DecidableEq, Repr

/-- R128: the use that each operation gives XB. -/
def xbUse : Instr → XbUse
  | .nop _ | .li _ _ | .lih _ _ | .addi _ _ _ | .andi _ _ _ | .ori _ _ _ | .xori _ _ _ | .shli _ _ _ | .shri _ _ _ 
  | .srai _ _ _ | .cmpi _ _ _ _ | .csrr _ _ | .csrw _ _ | .crd _ _ | .pushm _ _ _ | .popm _ _ _ | .br _ 
  | .call _ _ | .jr _ _ | .loopImm _ _ | .repvImm _ _ | .layer _ | .tspawn _ | .tjoin _ _ | .waitSw _ _ _ 
  | .waitBs _ _ _ | .hwin _ | .trap _ | .svc _ | .ldbS _ _ _ _ | .ldbU _ _ _ _ | .ldhS _ _ _ _ | .ldhU _ _ _ _ 
  | .ldwS _ _ _ _ | .ldwU _ _ _ _ | .lddS _ _ _ _ | .lddU _ _ _ _ | .stb _ _ _ _ | .sth _ _ _ _ | .stw _ _ _ _ 
  | .std _ _ _ _ | .cas _ _ _ _ _ | .amoAdd _ _ _ _ _ | .amoAnd _ _ _ _ _ | .amoOr _ _ _ _ _ | .amoXor _ _ _ _ _ 
  | .amoMin _ _ _ _ _ | .amoMax _ _ _ _ _ | .amoMinu _ _ _ _ _ | .amoMaxu _ _ _ _ _ | .amoSwap _ _ _ _ _ 
  | .amoFadd32 _ _ _ _ | .bars _ _ _ | .bara _ _ _ | .barrt _ | .npost _ _ | .ldv _ _ _ _ _ | .stv _ _ _ _ 
  | .ldvs _ _ _ _ _ | .gath _ _ _ _ _ | .scat _ _ _ _ _ | .tld _ _ _ _ | .tst _ _ _ _ | .mma _ _ _ _ 
  | .mmac _ _ _ _ | .mmab _ _ _ _ | .rkacc _ _ _ | .rkmerge _ _ | .rkst _ _ _ | .rkld _ _ | .cpy _ _ _ _ _ _ 
  | .csend _ _ _ _ _ _ => .any
  | .viadd _ _ _ _ _ | .visub _ _ _ _ _ | .vimul _ _ _ _ _ | .vimad _ _ _ _ _ | .vcvt _ _ _ _ _ _ | .accvt _ _ _ => .low 2
  | .vimin _ _ _ _ _ | .vimax _ _ _ _ _ => .only 2
  | _ => .none

/-! ### Slot faults (R346) -/

/-- R346, R353: a field holds a value that its description reserves; bits that no operation names are refused by the decoder. -/
def fieldBad : Instr → Bool
  | .ldbS _ _ f i | .ldbU _ _ f i | .ldhS _ _ f i | .ldhU _ _ f i | .ldwS _ _ f i | .ldwU _ _ f i | .lddS _ _ f i
  | .lddU _ _ f i | .stb _ _ f i | .sth _ _ f i | .stw _ _ f i | .std _ _ f i => f == 1 && 6 ≤ i.toNat / 32
  | .fence s _ | .waitSw s _ _ | .waitBs s _ _ | .bars s _ _ | .barn s _ | .barnA s _ => 6 ≤ s.toNat
  | .cpy _ r q _ _ s => if r == 1 || q == 1 then 6 ≤ s.toNat else s != 0
  | .csend _ r _ _ _ s => if r == 1 then 6 ≤ s.toNat else s != 0
  | .cdim _ l _ b => 6 ≤ l.toNat || (l == 0 && b != 0)
  | .cqry _ _ _ i => 5 ≤ i.toNat
  | .loopx k => 6 ≤ k.toNat
  | .vcvt _ _ _ _ t _ => [0, 6, 7, 8, 12].contains t.toNat
  | .vqnt _ _ _ _ f => f == 3
  | .vshuf _ _ _ b p => 6 ≤ p.toNat && b != 0
  | .pushm _ _ f | .popm _ _ f => 5 ≤ f.toNat
  | _ => false

/-- R346: the cause of a specifier that is reserved or wrongly placed for its field. -/
def Opnd.specFault : Opnd → Option Nat
  | .sr x => if 39 < x then some 0x07 else none
  | .sd x => if x ≤ 16 || x == 32 then none else some 0x07
  | .sn x => if x < 16 then none else some 0x07
  | .vd _ x => if x ≤ 16 then none else some 0x08
  | .vn _ x => if x < 16 then none else some 0x08
  | .vx _ x => if 32 ≤ x && x < 48 then none else some 0x08
  | .vc _ x => if x < 8 then none else some 0x08
  | .ad x => if x ≤ 16 || (32 ≤ x && x ≤ 48) then none else some 0x08
  | .kr _ x => if x < 16 then none else some 0x09
  | .kd _ x => if 1 ≤ x && x < 8 then none else some 0x09
  | .tl x => if x < 8 then none else some 0x0A
  | .ac x => if 8 ≤ x && x < 12 then none else some 0x0A
  | .mx x => if 12 ≤ x && x < 20 then none else some 0x0A
  | .tc x => if 20 ≤ x && x < 28 then none else some 0x0A
  | _ => none

/-- The specifier as the slot writes it (R177). -/
def Opnd.spec (off : Nat) : Opnd → Nat
  | .sr x | .sd x | .sn x | .ad x | .km _ x | .kr _ x | .kd _ x | .kp _ x | .pr x | .pd x | .cr x | .cw x
  | .tl x | .ac x | .mx x | .tc x => x
  | .vr _ x | .vd _ x | .vn _ x | .vx _ x | .vc _ x => if x % 32 < 16 then x - off else x

/-- The mask that a mask specifier names. -/
def maskRes (v : Cluster) (x : Nat) : Res := if x < 8 then .m v x else .m (otherCluster v) (x % 8)

/-- The named vector register that a vector specifier names. -/
def vecRes (v : Cluster) (x : Nat) : List Res := if x % 32 < 16 then [.v (specCluster v x) (x % 16)] else []

/-- R130, R347: the named registers, masks, predicates and control registers that an operand reads. -/
def Opnd.reads : Opnd → List Res
  | .sr x | .sn x => if x < 16 then [.s x] else []
  | .vr v x | .vn v x => vecRes v x
  | .vc v x => [.v v x, .v v (x + 8)]
  | .km v x | .kr v x => [maskRes v x]
  | .pr x => [.p x]
  | .cr n => [.cr n]
  | _ => []

/-- R130: the named registers, masks, predicates and control registers that an operand names as destination. -/
def Opnd.writes : Opnd → List Res
  | .sd x | .sn x => if x < 16 then [.s x] else []
  | .vd v x | .vn v x | .vx v x => vecRes v x
  | .ad x => vecRes .va x
  | .vc v x => [.v v x, .v v (x + 8)]
  | .kd v x | .kp v x => [.m v x]
  | .pd x => [.p x]
  | .cw n => [.cr n]
  | _ => []

/-- R127, R136: the Trellis in which an operand takes the next age position. -/
def Opnd.position : Opnd → Option TrellisOf
  | .sd x => if x == 16 then some .s else none
  | .vd v x => if x == 16 then some (.v v) else none
  | .ad x => if x == 16 then some (.v .va) else if x == 48 then some (.v .vb) else none
  | _ => none

/-- R164: the control registers that have a number. -/
def listedCr (n : Nat) : Bool :=
  n ≤ 0x0D || (0x10 ≤ n && n ≤ 0x17) || (0x18 ≤ n && n ≤ 0x1D) || (0x20 ≤ n && n ≤ 0x22) || (0x24 ≤ n && n ≤ 0x26)

/-- R164: the control registers that only the supervisor writes. -/
def supervisorCr (n : Nat) : Bool :=
  (1 ≤ n && n ≤ 5) || (0x20 ≤ n && n ≤ 0x22) || (0x24 ≤ n && n ≤ 0x26)

/-- R192: the operations that execute at supervisor privilege only. -/
def privileged (x : SlotCtx) : Instr → Bool
  | .fidset _ | .eret | .tlbir _ | .tlbirAll _ => true
  | .csrw _ n => supervisorCr (immZ 9 n.toNat x)
  | _ => false

/-- R346: the control-register or counter number of an operation, when it is reserved. -/
def numberBad (x : SlotCtx) : Instr → Option Nat
  | .csrr _ n => if listedCr (immZ 9 n.toNat x) then none else some (immZ 9 n.toNat x)
  | .csrw _ n => if listedCr (immZ 9 n.toNat x) then none else some (immZ 9 n.toNat x)
  | .crd _ n => if immZ 9 n.toNat x ≤ 5 then none else some (immZ 9 n.toNat x)
  | _ => none

/-- R128, R202: bits of XB set that a specifier extension leaves reserved. -/
def xbReserved (x : SlotCtx) (i : Instr) : Bool :=
  match xbUse i with
  | .low n => 2 ^ n ≤ x.xb.toNat
  | .only n => x.xb.toNat != 0 && x.xb.toNat != 2 ^ (n - 1)
  | _ => false

/-- The first operand whose specifier raises a cause. -/
def firstSpec (c : Nat) (l : List Opnd) : Option Opnd := l.find? (fun o => o.specFault == some c)

/-- R130, R347: the specifier of the first operand that reads what an earlier slot of the group names as destination. -/
def dependence (dests : List Res) (off : Nat) (l : List Opnd) : Option Nat :=
  (l.find? (fun o => o.reads.any (fun r => dests.contains r))).map (Opnd.spec off)

/-- R131, R136: whether what an operand reads has arrived. -/
def Opnd.ready (c : Context) (o : Opnd) : Bool :=
  o.reads.all c.resReady &&
  match o with
  | .sr x => x < 16 || 32 ≤ x || (c.sq.age 0 (x - 16)).await.isNone
  | .vr v x => x % 32 < 16 || ((c.vq (specCluster v x)).age VReg.zero (x % 16)).await.isNone
  | _ => true

/-- R194: elements per lane of a tag. -/
def perLane (t : Nat) : Nat :=
  match t with
  | 2 | 3 | 10 => 2
  | 4 | 5 | 9 => 4
  | _ => 1

/-- R207: tags that VCVT takes. -/
def tagsCvt : List Nat := [1, 2, 3, 4, 5, 9, 10, 11]

/-- R207: whether a VCVT from a tag to a tag keeps elements of its destination, which it then also reads. -/
def merges (st tt : Nat) : Bool := (tagsCvt.contains st || st == 0 || st == 12) && decide (perLane st < perLane tt)

/-- R207: the destination that a VCVT also reads, as the tag that its source holds has it; a source still to arrive has none yet. The tag
counts for a disabled slot too (assumption 56). -/
def kept (i : Instr) (s : State) : Option (Cluster × BitVec 6) :=
  match i with
  | .vcvt v d a _ t _ =>
    if (Opnd.vr v a.toNat).ready s.core.act && merges (readV v a.toNat s).tag t.toNat then some (v, d) else none
  | _ => none

/-- R207, R346: a destination that is also read must be an own named register. -/
def keptBad (i : Instr) (s : State) : Option (BitVec 8 × W64) :=
  ((kept i s).filter (fun p => decide (16 ≤ p.2.toNat))).map (fun p => (0x08, BitVec.ofNat 64 p.2.toNat))

/-- R207, R347: a destination that is also read and was named by an earlier slot of the group. DESIGN CHOICE (assumption 56): it counts
for a disabled slot too. -/
def keptDepends (i : Instr) (s : State) : Option (BitVec 8 × W64) :=
  ((kept i s).filter (fun p => s.core.act.group.dests.contains (.v p.1 p.2.toNat))).map (fun p =>
    (0x0B, BitVec.ofNat 64 ((Opnd.vn p.1 p.2.toNat).spec s.core.slot.repOff)))

/-- R342, R346, R347: the lowest of the causes 0x05 to 0x0E that a slot with operation `i` raises, enabled or not. -/
def slotFault (i : Instr) (s : State) : Option (BitVec 8 × W64) :=
  let x := s.core.slot
  let ops := operands x i
  let word := BitVec.ofNat 64 (curWord s).toNat
  let spec (c : Nat) : Option (BitVec 8 × W64) :=
    (firstSpec c ops).map (fun o => (BitVec.ofNat 8 c, BitVec.ofNat 64 (o.spec x.repOff)))
  if fieldBad i || xbReserved x i then some (0x05, word)
  else if xbUse i == .none && x.xb != 0 then some (0x06, BitVec.ofNat 64 x.xb.toNat)
  else
    (spec 0x07) <|> (spec 0x08) <|> keptBad i s <|> (spec 0x09) <|> (spec 0x0A) <|>
    ((dependence s.core.act.group.dests x.repOff ops).map (fun v => (0x0B, BitVec.ofNat 64 v))) <|> keptDepends i s <|>
    (if privileged x i && !s.core.act.priv then some (0x0D, BitVec.ofNat 64 (slotOpc (curWord s))) else none) <|>
    ((numberBad x i).map (fun n => (0x0E, BitVec.ofNat 64 n)))

/-- R346: bits of a register operand's value that must be zero, checked when the instruction issues. -/
def valueBad (i : Instr) (s : State) : Bool :=
  match i with
  | .tld _ _ b _ | .tst _ _ b _ => (readS b.toNat s).toNat / 2 ^ 37 != 0
  | .psub _ b _ => (readS b.toNat s).toNat / 2 ^ 50 != 0
  | .chold _ a _ | .cclose a | .cstat _ a | .csend _ _ _ a _ _ => (readS a.toNat s).toNat / 8 != 0
  | .copen _ a _ => (readS a.toNat s).toNat / 2 ^ 11 != 0
  | _ => false

/-! ### Readiness (R131, R136, R225, R226) -/

/-- R225: WBUSY of a tile in a cycle. -/
def Tile.writeBusy (cy : Nat) (t : Tile) : Bool := t.wait.isSome || t.wbusy.any (fun d => decide (cy < d))
/-- R225: RBUSY of a tile in a cycle. -/
def Tile.readBusy (cy : Nat) (t : Tile) : Bool := t.rbusy.any (fun d => decide (cy < d))
/-- R225: WBUSY of an accumulator in a cycle. -/
def Acc.writeBusy (cy : Nat) (a : Acc) : Bool := a.wait.isSome || a.wbusy.any (fun d => decide (cy < d))
/-- R225: RBUSY of an accumulator in a cycle. -/
def Acc.readBusy (cy : Nat) (a : Acc) : Bool := a.rbusy.any (fun d => decide (cy < d))

/-- The tile of the active context that a specifier names. -/
def tileAt (s : State) (x : Nat) : Tile := s.core.act.tiles.getD x Tile.zero
/-- The accumulator of the active context that a specifier names. -/
def accAt (s : State) (x : Nat) : Acc := s.core.act.accs.getD (x - 8) Acc.zero
/-- R224: the row mask and column mask of pair `n`. -/
def maskPair (s : State) (n : Nat) : Nat × Nat := ((s.core.act.rwm.getD n 0).toNat, (s.core.act.clm.getD n 0).toNat)
/-- R221: ROWS of a tile. -/
def Tile.nrows (t : Tile) : Nat := fld t.tc.toNat 0 6

/-- R224: the rows of tile `a` that an MMA-class instruction with mask pair `n` takes. -/
def activeRows (s : State) (a n : Nat) : List Nat :=
  (List.range 32).filter (fun i => bit (maskPair s n).1 i && decide (i < (tileAt s a).nrows))

/-- R234: whether the MMAB at hand skips. -/
def skips (s : State) (d a n : Nat) : Bool :=
  mmabSkips (accAt s d) (activeRows s a n) (fld (readS s.core.slot.xb.toNat s).toNat 32 32)

/-- R226, R90: whether the array is occupied or its rails settle. -/
def arrayBusy (s : State) : Bool := decide (s.core.cycle < s.core.arrayFree) || decide (s.core.time < s.core.railEnds)

/-- R240: whether the slot itself waits for the image that keeps an accumulator busy. -/
def ownImage (s : State) (x : Nat) : Bool :=
  match s.core.act.wait with
  | .access id _ => (accAt s x).wait == some id
  | _ => false

/-- R90, R225, R226, R234: whether an operation of unit M must wait for a tile, an accumulator or the array. An MMAB into a ranked accumulator
waits for its WBUSY before it decides; into a plain one it chains like an MMA. -/
def unitBusy (i : Instr) (s : State) : Bool :=
  let cy := s.core.cycle
  let tw (x : Nat) : Bool := (tileAt s x).writeBusy cy || (tileAt s x).readBusy cy
  let tr (x : Nat) : Bool := (tileAt s x).writeBusy cy
  let aw (x : Nat) : Bool := (accAt s x).writeBusy cy || (accAt s x).readBusy cy
  let ar (x : Nat) : Bool := (accAt s x).writeBusy cy
  let chained (x : Nat) : Bool := (accAt s x).readBusy cy || ((accAt s x).writeBusy cy && !(accAt s x).mmaBusy)
  match i with
  | .tcfg d _ => tw (d.toNat - 20)
  | .tzero d | .tld d _ _ _ | .trwr d _ _ | .tcwr d _ _ => tw d.toNat
  | .tst d _ _ _ => tr d.toNat
  | .trrd _ a _ | .tcrd _ a _ => tr a.toNat
  | .mma d a b _ | .mmac d a b _ => chained d.toNat || tr a.toNat || tr b.toNat || arrayBusy s
  | .mmab d a b n =>
    arrayBusy s || (if (accAt s d.toNat).kind == .ranked then aw d.toNat else chained d.toNat) ||
      (!skips s d.toNat a.toNat n.toNat && (tr a.toNat || tr b.toNat))
  | .aczF d | .aczI d | .acwr d _ _ | .rkdecl d _ _ _ | .rkrel d | .rkins d _ _ _ => aw d.toNat
  | .rkmerge d _ | .rkld d _ => aw d.toNat && !ownImage s d.toNat
  | .acrd _ a _ | .rkth _ a | .rklen _ a => ar a.toNat
  | .rkst d _ _ => ar d.toNat
  | .accvt d a _ => tw d.toNat || ar a.toNat
  | .rkacc d a _ => aw d.toNat || ar a.toNat
  | _ => false

/-- R209: whether an operation must wait for the counts of a VHIST of its cluster. -/
def histBusy (i : Instr) (s : State) : Bool :=
  let c := s.core.act
  let busy (v : Cluster) : Bool :=
    match v with
    | .va => decide (s.core.cycle < c.histReadyA)
    | .vb => decide (s.core.cycle < c.histReadyB)
  match i with
  | .vqnt v _ _ _ _ => busy v
  | .vhclrRd v _ => busy v
  | .vhclr v => busy v
  | .vhclrRdc v _ => busy v
  | _ => false

/-- R131, R209, R225, R226: whether an enabled slot with operation `i` may issue in this cycle. -/
def ready (i : Instr) (s : State) : Bool :=
  (operands s.core.slot i).all (Opnd.ready s.core.act) && (kept i s).all (fun p => s.core.act.resReady (.v p.1 p.2.toNat)) &&
    !unitBusy i s && !histBusy i s

/-! ### The frame of a meaning -/

/-- Every meaning of a slot: R335, R342: it takes the slot's fault, or stalls until its operands are ready (R131), or has
its own effect. -/
def checked (i : Instr) (s : State) (k : State → Out) : Out :=
  match slotFault i s with
  | some f => .next (if decide (0x05#8 < f.1) && valueBad i s then trap 0x05 (BitVec.ofNat 64 (curWord s).toNat) s else trap f.1 f.2 s)
  | none =>
    if !ready i s then .next (stall s)
    else if valueBad i s then .next (trap 0x05 (BitVec.ofNat 64 (curWord s).toNat) s)
    else k s

/-- R127: what a disabled slot does: its Trellis destinations take positions that hold zero and have arrived. -/
def disabledEffect (i : Instr) (s : State) : State :=
  let taken : List PendingPos :=
    (operands s.core.slot i).filterMap (fun o => o.position.map (fun t => PendingPos.mk t 0 VReg.zero Option.none))
  modAct (fun c => { c with group := { c.group with pending := c.group.pending ++ taken } }) s

/-- R130: the destinations that a slot adds to its group. -/
def destinations (x : SlotCtx) (i : Instr) : List Res := (operands x i).flatMap Opnd.writes

end Sys2Proof.Machine
end

