-- ==== Sys2Proof/Machine/Reach.lean ====
section
/-! DEFINITION. How an instruction of a context reaches memory: translation by the current context, the waits and stops of
an access (R107, R114, R118, R379, R390), scalar answers (R245 to R247), and reads that a slot stalls for (R179, R181, R251). -/

namespace Sys2Proof.Machine

/-- The current context's translation of an access at a 64-bit address operand. -/
def xlate (va len : Nat) (k : AccessKind) (al : Nat) (s : State) : Xlate := translate s s.lcn s.core.act va len k al

/-- R372: the causes that a write of no bytes is checked for. -/
def emptyCause (e : BitVec 8) : Bool := (0x60#8 ≤ e && e ≤ 0x66#8) || e == 0x68#8 || e == 0x6A#8

/-- R372, R119: a write without a byte is translated as a one-byte write at its address; its alignment is not checked. -/
def emptyWrite (va : Nat) (s : State) : Out :=
  match xlate va 0 .write 1 s with
  | .fail e v => .next (if emptyCause e then trapAt va e v s else s)
  | .ok _ => .next (keepLeaf s.lcn s.core.act (va % 2 ^ 57) s)

/-- R101: the current core keeps the leaf that an access at `va` used. -/
def touch (va : Nat) (s : State) : State := keepLeaf s.lcn s.core.act (va % 2 ^ 57) s

/-- R379: whether an operation on pieces of this package meets uncorrectable data. -/
def meetsLost (s : State) (op : AccessOp) (ps : List Piece) : Bool :=
  ps.any (fun p => pkgOf p.pa == pkgId s &&
    (if op.reads then spanBad s (localOf p.pa) p.len else partialBad s (localOf p.pa) p.len))

/-- R390: the erased key slot that a piece would use. -/
def erasedKey (s : State) (ps : List Piece) : Option Nat :=
  (ps.find? (fun p => pkgOf p.pa == pkgId s && encrypted (localOf p.pa) &&
    !(keySlotAt s p.key).installed && (keySlotAt s p.key).gen != 0)).map Piece.key

/-- R379, R390: what stops a translated access at its slot. -/
def memStop (s : State) (op : AccessOp) (ps : List Piece) (va : Nat) : Option (BitVec 8 × W64) :=
  if meetsLost s op ps then some (0x6B, BitVec.ofNat 64 va)
  else (erasedKey s ps).map (fun k => (0xB1, BitVec.ofNat 64 k))

/-- R105: whether a scalar access to pieces is narrow: at most 8 bytes in one place of this package. -/
def isNarrow (s : State) (ps : List Piece) : Bool :=
  match ps with
  | [p] => decide (p.len ≤ 8) && pkgOf p.pa == pkgId s
  | _ => false

/-- R105: whether the slot being executed is of unit S, whose accesses alone are narrow. -/
def scalarSlot (s : State) : Bool := fld (curWord s).toNat 28 3 == 0

/-- R248: whether a FENCE holds back the issue of a wide access, or of one to another package, of the slot being executed. -/
def fenced (s : State) (ps : List Piece) : Bool :=
  !(isNarrow s ps && scalarSlot s) && held s s.core.act.tid s.core.act.holds s.core.slot.xb.toNat s.nextId

/-- R169: whether a scalar memory access waits for a stack transfer. -/
def behindStack (s : State) : Bool := scalarSlot s && decide (s.core.cycle < s.core.act.pushBusy)

/-- R114, R118, R169, R248: a translated access: it waits for a stack transfer, a FENCE, a watermark or a claimed host entry; it may
stop; else `k` makes it. -/
def reach (ps : List Piece) (va : Nat) (op : AccessOp) (s : State) (k : State → Out) : Out :=
  if behindStack s || fenced s ps || blocked s ps then .next (stall s)
  else
    match memStop s op ps va with
    | some f => .next (trapAt va f.1 f.2 s)
    | none => k (touch va s)

/-- R371, R373: one access of `len` bytes at a 64-bit address operand, taken precisely at the slot. -/
def oneAccess (va len : Nat) (kind : AccessKind) (al : Nat) (op : AccessOp) (s : State) (k : Piece → State → Out) : Out :=
  match xlate va len kind al s with
  | .fail e v => .next (trapAt va e v s)
  | .ok p => reach [p] va op s (k p)

/-- R219: the time from perform to answer of an access whose home latency is `L` cycles. -/
def answerUnits (s : State) (home : Bool) (L : Nat) (ps : List Piece) : Nat :=
  if home then L * s.core.unit else (halves s s.lcn ps).2 * Config.unitsPerTick

/-- R93, R219: make an access that the slot does not wait for. -/
def makeAccess (home : Bool) (a : Access) (s : State) : State := if home then (homeAccess a s).2 else sendAccess a s

/-- R131, R219, R245, R247: an access whose value goes to scalar destination `d`: after `L` cycles from the home window, else
when its answer arrives. `flags` says that the flags of the answer merge into STW (R246). -/
def scalarAccess (home : Bool) (a : Access) (d : Nat) (f : List Byte → W64) (L : Nat) (flags : Bool) (s : State) : State :=
  let done (m fl : Nat) (due : Option Nat) (s : State) : State :=
    if flags then
      modAct (fun c => { c with completions := c.completions ++
        [⟨m, due, BitVec.ofNat 5 fl, BitVec.ofNat 5 c.fen, BitVec.ofNat 18 c.here, 0, c.order, 0, 0, [], none⟩] }) s
    else s
  if home then
    match homeAccess a s with
    | (some e, s) =>
      let m := freshId s
      done m.1 e.flags (dueIn L m.2) (writeS d (f e.data) L m.2)
    | (none, s) => done a.id 0 none (writeSDue d 0 none s)
  else done a.id 0 none (writeSDue d 0 none (sendAccess a s))

/-- Where the answer for scalar destination `d` goes. -/
def scalarReturn (s : State) (d z : Nat) (signed : Bool) : AccessReturn :=
  if d == 32 then .none else .scalar s.core.act.nextRid z signed

/-- R181, R182, R251: a slot that stalls for an access it makes: it makes the access, waits for the answer, then goes on with
`k`, or takes the cause with which the access failed. A home answer takes `L` cycles. -/
def awaitAccess (va len : Nat) (kind : AccessKind) (acq rel : Bool) (op : AccessOp) (L : Nat) (s : State)
    (k : List Byte → State → Out) : Out :=
  match s.core.act.wait with
  | .access id _ =>
    match accessAt s id with
    | none => .next (stall (waitOver s))
    | some a =>
      if !a.answered then .next (stall s)
      else
        let s := dropAccess id (waitOver s)
        match a.failed with
        | some f => .next (trapAt va f.1 f.2 s)
        | none => k a.data s
  | _ =>
    oneAccess va len kind (min len 64) op s (fun p s =>
      let home := isHome va len
      let a := mkAccess s s.core.slot.xb.toNat acq rel va [p] op .waiting (answerUnits s home L [p])
      let s := if home then soon (.accessPerform a.id) { s with accesses := s.accesses ++ [a], nextId := s.nextId + 1 }
        else sendAccess a s
      .next (stallFor (.access a.id 0) s))

end Sys2Proof.Machine
end

