-- ==== Sys2Proof/Machine/Flags.lean ====
section
/-! DEFINITION. The arithmetic flags of STW (R138, R196) and the traps they take when enabled (R354). -/

namespace Sys2Proof.Machine

/-- R138: set sticky flags, given in the order NV, DZ, OF, UF, NX from bit 0. -/
def Context.setFlags (fl : Nat) (c : Context) : Context := c.putStw 32 5 (fld c.stw.toNat 32 5 ||| fl)

/-- The flags that any of the listed lanes raised. -/
def allFlags (l : List (Nat × Nat)) : Nat := l.foldl (fun m p => m ||| p.2) 0

/-- R354: the mask of the lanes in which flag `f` arose. -/
def lanesOf (f : Nat) (l : List (Nat × Nat)) : Nat := l.foldl (fun m p => if bit p.2 f then m ||| 2 ^ p.1 else m) 0

/-- R354: the first enabled flag raised, in the order NV, DZ, OF, UF, NX. -/
def firstEnabled (fen fl : Nat) : Option Nat := [0, 1, 2, 3, 4].find? (fun f => bit fen f && bit fl f)

/-- R354: while FEN is nonzero the next bundle issues no earlier than the cycle in which the flags are known. -/
def flagWait (L : Nat) (s : State) : State :=
  if s.core.act.fen == 0 then s else modSlot (fun x => { x with extra := max x.extra (L - 1) }) s

/-- R196, R354: an arithmetic instruction of latency `L` with the flags its lanes raised: an enabled flag is a trap and nothing
is written, otherwise the flags are set and `k` writes the result. -/
def arith (L : Nat) (fl : List (Nat × Nat)) (s : State) (k : State → State) : State :=
  match firstEnabled s.core.act.fen (allFlags fl) with
  | some f => trap (BitVec.ofNat 8 (0x40 + f)) (BitVec.ofNat 64 (lanesOf f fl)) s
  | none => k (flagWait L (modAct (Context.setFlags (allFlags fl)) s))

end Sys2Proof.Machine
end

