-- ==== Sys2Proof/Machine/Sequencer.lean ====
section
/-! DEFINITION. The sequencer apart from what instructions do: bundle faults (R345), guards (R127), readiness of a bundle
(R131), energy (R296), the commit of a slot (R125, R129), and the end of a bundle (R170, R173, R177, R189). -/

namespace Sys2Proof.Machine

/-- R124: NOP. -/
def isNop : Instr → Bool
  | .nop _ => true
  | _ => false

/-- R129: the operations whose bundle ends its group at slot 3. -/
def endsGroup : Instr → Bool
  | .br _ | .call _ _ | .callr _ _ | .ret _ | .jr _ _ | .layer _ | .lret | .texit _ | .yield | .trap _ | .svc _ | .eret => true
  | _ => false

/-- R350: what the target bundle of REPV must not hold. -/
def notRepeatable : Instr → Bool
  | .repv _ _ | .repvImm _ _ | .loop _ _ | .loopImm _ _ | .loopx _ => true
  | i => endsGroup i

/-- R126: the numbers of the slots of a bundle that hold operations. -/
def slotNumbers (b : BitVec 128) : List Nat := if (bundleHeader b).isSome then [1, 2, 3] else [0, 1, 2, 3]

/-- The operations of a bundle that decode. -/
def bundleOps (b : BitVec 128) : List Instr :=
  (slotNumbers b).filterMap (fun k =>
    match decodeSlot (slotWord b k) with
    | .ok x => some x.op
    | .error _ => none)

/-- R124: the unit a slot uses; a NOP uses none. -/
def usedUnit (w : W32) : Option Nat := if slotUnit w == 0 && slotOpc w == 0 then none else some (slotUnit w)

/-- R345: the first unit that a later slot uses again. -/
def unitTwice : List Nat → Option Nat
  | [] => none
  | u :: r => if r.contains u then some u else unitTwice r

/-- R345: the lowest bundle fault of a bundle, with its detail. -/
def bundleFault (b : BitVec 128) : Option (BitVec 8 × W64) :=
  let ws := [0, 1, 2, 3].map (slotWord b)
  let val (w : W32) : W64 := BitVec.ofNat 64 w.toNat
  match ws.find? (fun w => slotUnit w == 6) with
  | some w => some (0x00, val w)
  | none =>
    match (ws.drop 1).find? (fun w => slotUnit w == 7) with
    | some w => some (0x01, val w)
    | none =>
      match unitTwice ((slotNumbers b).filterMap (fun k => usedUnit (slotWord b k))) with
      | some u => some (0x02, BitVec.ofNat 64 u)
      | none =>
        if (bundleHeader b).any Header.res31 then some (0x03, val (slotWord b 0)) else none

/-- R127: whether the guard of a slot is in force. -/
def guardOn (e : ExtByte) (s : State) : Bool := if e.gsel == 0 then !e.ginv else readP e.gsel.toNat s != e.ginv

/-- R177: the repeat that the bundle at hand is the target of. -/
def repeatAt (c : Context) : Option Repeat := c.rep.filter (fun r => r.addr == c.here && r.micro == c.micro)

/-- R177: what a repeat adds to stepped specifiers. -/
def repeatOff (c : Context) : Nat :=
  match repeatAt c with
  | some r => (c.repc - 1) * r.stride
  | none => 0

/-- A slot of unit VA or VB. -/
def isVector (w : W32) : Bool := slotUnit w == 1 || slotUnit w == 2

/-- R177, R350: whether a bundle has a slot to repeat. -/
def hasVector (b : BitVec 128) : Bool := (slotNumbers b).any (fun k => isVector (slotWord b k))

/-- R177, R350: whether an iteration leaves a slot out; a target without a VA or VB slot runs once. -/
def repeatSkips (c : Context) (b : BitVec 128) (w : W32) : Bool :=
  (repeatAt c).isSome && hasVector b && (if isVector w then c.repc == 0 else 1 < c.repc)

/-- R177: what a slot executes: VA and VB operations with their stepped specifiers raised. -/
def repeated (c : Context) (w : W32) (i : Instr) : Instr := if isVector w then stepInstr (repeatOff c) i else i

/-- R177, R346: whether this is the first enabled VA or VB slot of the target of a repeat of which an enabled slot passes v15. -/
def repeatRange (b : BitVec 128) (s : State) : Bool :=
  let vs := (slotNumbers b).filter (fun k => isVector (slotWord b k) && guardOn (bundleExt b k) s)
  vs.head? == some s.core.slot.k && vs.any (fun k =>
    match decodeSlot (slotWord b k) with
    | .ok y => stepPasses (repeatOff s.core.act) s.core.slot y.op
    | .error _ => false)

/-- The slot context in which slot `k` of a bundle is looked at. -/
def slotAt (b : BitVec 128) (k : Nat) (s : State) : State :=
  modSlot (fun x => { x with
    k := k, hdr := (bundleHeader b).isSome, xb := (bundleExt b k).xb, ended := .committed
    repOff := if isVector (slotWord b k) then repeatOff s.core.act else 0 }) s

/-- R127, R131: whether slot `k` lets its bundle issue; a slot that will fault does. -/
def slotReady (b : BitVec 128) (s : State) (k : Nat) : Bool :=
  let w := slotWord b k
  let e := bundleExt b k
  let c := s.core.act
  match decodeSlot w with
  | .error _ => true
  | .ok y =>
    if isNop y.op || repeatSkips c b w then true
    else if e.gsel != 0 && !c.resReady (.p e.gsel.toNat) then false
    else
      let i := repeated c w y.op
      let s := slotAt b k s
      !guardOn e s || (slotFault i s).isSome || ready i s

/-- R131: whether every slot still to execute lets the bundle issue. -/
def bundleReady (b : BitVec 128) (k : Nat) (s : State) : Bool :=
  ((slotNumbers b).filter (fun i => k ≤ i)).all (slotReady b s)

/-- R296: the bundle's weight (R126). -/
def bundleWeight (c : Context) (b : BitVec 128) : Nat :=
  match bundleHeader b with
  | some h => h.weight.toNat
  | none => (c.task.map (fun t => t.desc.wdef)).getD 0

/-- R294: the local address of PWRCTL of a core. -/
def pwrctl (n : Nat) : Nat := 0x2400000 + n * 0x40
/-- R294: ECAP. -/
def ecap (s : State) : Nat := fld (regRaw s (pwrctl s.lcn)) 0 10

/-- R296: the weights of cycles c − 63 to c − 1. -/
def recentWeights (c : Core) : List (Nat × Nat) := c.weights.filter (fun p => c.cycle < p.1 + 64)

/-- R296: whether a bundle of weight `w` would pass the cap in the present cycle. -/
def energyStalls (w : Nat) (s : State) : Bool := decide (ecap s < ((recentWeights s.core).map Prod.snd).sum + w)

/-- R168: a cycle in which the context issues neither a bundle nor a stall bundle. -/
def countStall (s : State) : State := modAct (fun c => { c with dstall := c.dstall + 1 }) s

/-- R131, R168: the bundle does not issue in this cycle. -/
def stallCycle (s : State) : State := modCore (Core.pass 1) (countStall s)

/-- R125, R325: while a bundle waits for its operands SLOTRES names the first slot that it executes: with a header slot 1 (assumption 53). -/
def waitCycle (b : BitVec 128) (s : State) : State :=
  stallCycle (if (bundleHeader b).isSome && s.core.act.slotres == 0 then modAct (Context.putStw 0 2 1) s else s)

/-- R53: bytes of the preload's present item filled so far, when that is item `i`; an earlier item has none, a later all. -/
def Preload.filled (i len : Nat) (p : Preload) : Nat := if p.item < i then 0 else if p.item == i then p.off else len

/-- R53: whether a bundle of instruction memory has yet to be filled. -/
def Preload.programLeft (line : Nat) (p : Preload) : Bool :=
  let l := p.entry.task.plist
  decide (l.pdst + p.filled 2 (l.plen * 16) / 16 ≤ line) && decide (line < l.pdst + l.plen)

/-- R53: whether a line of the control store has yet to be filled. -/
def Preload.csLeft (line : Nat) (p : Preload) : Bool :=
  let l := p.entry.task.plist
  decide (p.filled 3 (l.cslen * 16) / 16 ≤ line) && decide (line < l.cslen)

/-- R53: whether the line that holds the next bundle has not been filled by the preload of the active task. -/
def lineUnfilled (d : Core) : Bool :=
  let line := d.act.here / 16
  (d.preloads.filter (fun p => d.act.isTask p.entry.task.taskid)).any (fun p =>
    if d.act.micro then p.csLeft line else p.programLeft line)

/-- R35, R126: whether slot `k` is the first that a bundle executes. -/
def firstSlotOf (b : BitVec 128) (k : Nat) : Bool := k == 0 || (k == 1 && (bundleHeader b).isSome)

/-- R335, R402: whether the context of a core stands at a bundle boundary: its bundle has not issued, or no slot of it has committed since
it issued and the first of them still waits. -/
def Core.atBoundary (d : Core) : Bool := !d.slot.issued || (d.slot.ended == .stalled && d.slot.k == d.slot.first)

/-- R125, R133, R168, R296: the bundle issues: it counts, carries its weight and fixes the tick that its slots read. The rest of a
bundle that resumes at a later slot is an issue of its own (R125). -/
def issue (b : BitVec 128) (s : State) : State :=
  let k := s.core.act.slotres
  let f := firstSlotOf b k
  let w := bundleWeight s.core.act b
  let wrote := if f then [] else s.core.act.split
  let s := modAct (fun c => { c with bundles := c.bundles + 1, order := c.order + 1, split := [] }) s
  modCore (fun d => { d with
    weights := recentWeights d ++ [(d.cycle, w)]
    slot := ⟨true, s.time / Config.unitsPerTick, if k == 0 && (bundleHeader b).isSome then 1 else k, 0, (bundleHeader b).isSome, wrote, 0, 0, .committed, 0,
      if k == 0 && (bundleHeader b).isSome then 1 else k⟩ }) s

/-! ### The end of a bundle -/

/-- R173: the loop check at the end of a bundle at address `h`: the nest left, and where the innermost level that goes on
starts. -/
def loopCheck (h : Nat) (micro : Bool) : List Level → List Level × Option Nat
  | [] => ([], none)
  | l :: r =>
    if l.last == h && l.micro == micro then
      if 1 < l.rem.toNat then ({ l with rem := l.rem - 1, idx := l.idx + 1 } :: r, some l.start) else loopCheck h micro r
    else (l :: r, none)

/-- R170, R173: the context goes to the bundle executed next, a taken transfer first, and the cycles until it may issue. -/
def nextBundle (c : Context) : Context × Nat :=
  match c.xfer with
  | some t =>
    match t.eret with
    | some r => ((c.reinstate r).goto t, 3)
    | none => (({ c with xfer := none }).goto t, 3)
  | none =>
    let l := loopCheck c.here c.micro c.loops
    match l.2 with
    | some a => (({ c with loops := l.1 }).goto ⟨a, c.micro, none⟩, 1)
    | none => (({ c with loops := l.1 }).goto c.following, 1)

/-- R177, R350: an iteration of a repeat has been executed: REPC falls, and the bundle is executed again or left. -/
def endIteration (b : BitVec 128) (c : Context) : Context × Nat :=
  let n := if hasVector b then c.repc - 1 else 0
  let c := c.putStw 16 16 n
  if n == 0 then nextBundle { c with rep := none } else (c, 1)

/-- R129, R136: what the end of a bundle does to the open group. -/
def groupAtEnd (b : BitVec 128) (c : Context) : Context :=
  let body := c.loops.any (fun l => l.last == c.here && l.micro == c.micro)
  if (bundleOps b).any endsGroup || body || ((repeatAt c).isSome && c.repc != 0) then endGroup c
  else if c.group.isOpen then { c with group := { c.group with bundles := c.group.bundles + 1 } }
  else c

/-- R125, R168, R170, R173, R177, R189: every slot has committed: the group end, the next bundle, and a software trap of this bundle; one
that an ERET reinstates is taken at the end of the bundle that it returns to (R190). With a swap requested the bundle is the last (R55). -/
def endBundle (b : BitVec 128) (s : State) : State :=
  let extra := s.core.slot.extra
  let g := groupAtEnd b s.core.act
  let c := { g with soft := none }
  let r := if (repeatAt c).isSome then endIteration b c else nextBundle c
  let n := if s.core.swapReq.isSome then 1 else max r.2 (1 + extra)
  let s := modCore (fun d => { (d.pass n) with act := { r.1 with dstall := r.1.dstall + BitVec.ofNat 64 (n - 1) }, slot := SlotCtx.idle }) s
  match g.soft with
  | none => s
  | some t => takeTrap t.1 t.2.1 0 t.2.2 0 false s

/-- Go on to the next slot, or to the end of the bundle. -/
def nextSlot (b : BitVec 128) (s : State) : State :=
  let s := modAct (fun c => c.putStw 0 2 ((s.core.slot.k + 1) % 4)) s
  if s.core.slot.k == 3 then endBundle b s else modSlot (fun x => { x with k := x.k + 1 }) s

/-- R125, R129, R130: slot `y`, executed as `i`, has committed. DESIGN CHOICE (assumption 72): a NOP slot after a group's end opens no group; the
next group begins at the first slot that is no NOP, in the count of R144 as in the detail of cause 0x0C. -/
def commitSlot (b : BitVec 128) (y : Slot) (i : Instr) (s : State) : State :=
  let x := s.core.slot
  nextSlot b (modAct (fun c =>
    let c := if isNop i then c
      else { c with group := { c.group with isOpen := true, dests := c.group.dests ++ destinations x i } }
    if y.g then endGroup c else c) s)

/-- What follows the execution of a slot: it has committed, or the bundle stalls, or a trap or an ending has stopped it. -/
def finishSlot (b : BitVec 128) (y : Slot) (i : Instr) (s : State) : State :=
  match s.core.slot.ended with
  | .committed => commitSlot b y i s
  | .stalled => modCore (Core.pass 1) s
  | .stopped => s

end Sys2Proof.Machine
end

