-- ==== Sys2Proof/Machine/Control.lean ====
section
/-! DEFINITION. Control registers and counters, the spill stack, transfers, loops, repeats, micro-sequences, host, power and
fidelity control, and system instructions (R163 to R178, R183 to R191). -/

namespace Sys2Proof.Machine

/-! ### Control registers and counters (R163 to R168) -/

/-- R59, R167: ticks of budget left to the task of a context at a tick. -/
def Context.remaining (tick : Nat) (c : Context) : Nat :=
  match c.task with
  | none => 0
  | some t =>
    match c.runFrom with
    | some f => t.budget - (tick - f)
    | none => t.budget

/-- R113: a watermark register as CSRR reads it. -/
def Watermark.word (w : Watermark) : W64 :=
  BitVec.ofNat 64 (fld w.base 0 19 + fld w.limit 0 19 * 2 ^ 19 + fld w.mark 0 19 * 2 ^ 38 + b2n w.bound * 2 ^ 57)

/-- R176: LPSn. -/
def Context.lps (l : Nat) (c : Context) : W64 :=
  match c.loops[l]? with
  | some v => BitVec.ofNat 64 (v.rem.toNat + v.idx.toNat * 2 ^ 32)
  | none => 0

/-- R89: MERRn. -/
def merrWord (d : Core) (i : Nat) : W64 :=
  let m := d.merr.getD i (0, false)
  BitVec.ofNat 64 (m.1.toNat + b2n m.2 * 2 ^ 63)

/-- R164: the value of control register `n`. DESIGN CHOICE (assumption 57): a register that something other than CSRW has changed in the
same group reads with its present value. -/
def readCr (n : Nat) (s : State) : W64 :=
  let c := s.core.act
  match n with
  | 0x00 => c.readStw
  | 0x01 => c.epc
  | 0x02 => c.estw
  | 0x03 => c.cause
  | 0x04 => c.tval
  | 0x05 => c.tvec
  | 0x06 => c.macpc
  | 0x07 => c.micpc
  | 0x08 => c.ssp
  | 0x09 => c.sslim
  | 0x0A => c.sstop
  | 0x0B => BitVec.ofNat 64 (c.remaining s.core.slot.tick)
  | 0x0C => c.qpct
  | 0x0D => c.qbase
  | _ =>
    if n < 0x18 then (c.marks.getD (n - 0x10) Watermark.reset).word
    else if n < 0x1E then c.lps (n - 0x18)
    else if n < 0x23 then merrWord s.core (n - 0x20)
    else s.core.mgrp.getD (n - 0x24) 0

/-- R7: the bits of `v` under a mask of RW bits over the old value. -/
def underMask (m : Nat) (old v : W64) : W64 := (old &&& ~~~(BitVec.ofNat 64 m)) ||| (v &&& BitVec.ofNat 64 m)

/-- R138, R340: the RW bits of STW: flags and enables. -/
def stwRw : Nat := ones 32 5 + ones 40 5
/-- R340: the RW bits of ESTW. -/
def estwRw : Nat := ones 0 5 + stwRw
/-- R340: the RW bits of EPC and TVEC. -/
def pcRw : Nat := ones 4 15
/-- R166: the RW bits of SSP, SSLIM and SSTOP. -/
def ssRw : Nat := ones 4 19

/-- R89: the groups and detections counted at level `i + 1` in the present cycle. -/
def Core.countNow (i : Nat) (d : Core) : Nat × Nat := if d.countCycle == d.cycle then d.countThen.getD i (0, 0) else (0, 0)

/-- R89: `k` more detections: DET stops at its limit, which sets SAT. -/
def addDets (k : Nat) (m : BitVec 48 × Bool) : BitVec 48 × Bool :=
  (BitVec.ofNat 48 (min (2 ^ 48 - 1) (m.1.toNat + k)), m.2 || (k != 0 && decide (2 ^ 48 - 1 ≤ m.1.toNat + k)))

/-- R89: MERRn after a write: DET is RW, SAT is cleared by writing 1; the detections of the same cycle count on. -/
def writeMerr (i : Nat) (v : W64) (d : Core) : Core :=
  let m := addDets (d.countNow i).2 (BitVec.ofNat 48 v.toNat, (d.merr.getD i (0, false)).2 && !bit v.toNat 63)
  { d with merr := d.merr.set i m }

/-- R89: MGRPn after a write; the groups of the same cycle count on. -/
def writeMgrp (i : Nat) (v : W64) (d : Core) : Core := { d with mgrp := d.mgrp.set i (v + BitVec.ofNat 64 (d.countNow i).1) }

/-- R138: the flags that completed asynchronously in cycle `cy`, as bits of STW; a write of STW in that cycle leaves them set. -/
def Context.flagsOf (cy : Nat) (c : Context) : W64 := if c.flagCycle == cy then BitVec.ofNat 64 (c.flagsThen.toNat * 2 ^ 32) else 0

/-- R163, R164: what writing `v` to control register `n` does; registers without a writer and RO fields ignore it. -/
def writeCr (n : Nat) (v : W64) (s : State) : State :=
  match n with
  | 0x00 => modAct (fun c => { c with stw := underMask stwRw c.stw (v ||| c.flagsOf s.core.cycle) }) s
  | 0x01 => modAct (fun c => { c with epc := underMask pcRw c.epc v }) s
  | 0x02 => modAct (fun c => { c with estw := underMask estwRw c.estw v }) s
  | 0x03 => modAct (fun c => { c with cause := underMask (ones 0 15) c.cause v }) s
  | 0x04 => modAct (fun c => { c with tval := v }) s
  | 0x05 => modAct (fun c => { c with tvec := underMask pcRw c.tvec v }) s
  | 0x08 => modAct (fun c => { c with ssp := underMask ssRw c.ssp v }) s
  | 0x09 => modAct (fun c => { c with sslim := underMask ssRw c.sslim v }) s
  | 0x0A => modAct (fun c => { c with sstop := underMask ssRw c.sstop v }) s
  | 0x0C => modAct (fun c => { c with qpct := underMask (ones 0 11) c.qpct v }) s
  | 0x0D => modAct (fun c => { c with qbase := underMask (ones 0 8) c.qbase v }) s
  | 0x20 => modCore (writeMerr 0 v) s
  | 0x21 => modCore (writeMerr 1 v) s
  | 0x22 => modCore (writeMerr 2 v) s
  | 0x24 => modCore (writeMgrp 0 v) s
  | 0x25 => modCore (writeMgrp 1 v) s
  | 0x26 => modCore (writeMgrp 2 v) s
  | _ => s

/-- R163; R226, R246: a read of STW stalls until the matrix instructions and FADD32s before it have completed. -/
def execCsrr (d : BitVec 6) (n : BitVec 9) (s : State) : Out :=
  checked (.csrr d n) s (fun s =>
    let m := immZ 9 n.toNat s.core.slot
    if m == 0 && !s.core.act.completions.isEmpty then .next (stall s)
    else .next (writeS d.toNat (readCr m s) 2 s))

/-- R163 -/
def execCsrw (a : BitVec 6) (n : BitVec 9) (s : State) : Out :=
  checked (.csrw a n) s (fun s => .next (writeCr (immZ 9 n.toNat s.core.slot) (readS a.toNat s) s))

/-- R168: counter `n`. -/
def counter (n : Nat) (s : State) : W64 :=
  match n with
  | 0 => s.core.act.bundles
  | 1 => s.core.act.estall
  | 2 => s.core.act.mskip
  | 3 => s.core.act.dstall
  | 4 => BitVec.ofNat 64 s.core.cycle
  | _ => s.core.cestall

/-- R168 -/
def execCrd (d : BitVec 6) (n : BitVec 9) (s : State) : Out :=
  checked (.crd d n) s (fun s => .next (writeS d.toNat (counter (immZ 9 n.toNat s.core.slot) s) 2 s))

/-! ### The spill stack (R169) -/

/-- R169: bytes of a record of file `f`. -/
def recordSize (f : Nat) : Nat := if f == 1 || f == 2 then 272 else 16

/-- A vector register as bytes: lanes, tag, zeros. -/
def VReg.record (v : VReg) : List Byte :=
  v.lanes.flatMap (fun l => toBytes 4 l.toNat) ++ [BitVec.ofNat 8 v.tag] ++ List.replicate 15 0

/-- R169: the record of register `r` of file `f`. -/
def recordOf (f r : Nat) (s : State) : List Byte :=
  match f with
  | 0 => toBytes 8 (readS r s).toNat ++ List.replicate 8 0
  | 1 => (s.core.act.vreg .va r).shown.record
  | 2 => (s.core.act.vreg .vb r).shown.record
  | 3 => toBytes 8 (s.core.act.mask .va r).toNat ++ List.replicate 8 0
  | _ => toBytes 8 (s.core.act.mask .vb r).toNat ++ List.replicate 8 0

/-- A vector register from its record. -/
def VReg.ofRecord (b : List Byte) : VReg :=
  ⟨(List.range 64).map (fun l => BitVec.ofNat 32 (leAt b (4 * l) 4)), leAt b 256 1 % 16⟩

/-- R169: register `r` of file `f` from its record, with latency L. -/
def popRecord (f r L : Nat) (b : List Byte) (s : State) : State :=
  match f with
  | 0 => writeS r (BitVec.ofNat 64 (leAt b 0 8)) L s
  | 1 => writeVNamed .va r (BitVec.allOnes 64) (VReg.ofRecord b) (dueIn L s) s
  | 2 => writeVNamed .vb r (BitVec.allOnes 64) (VReg.ofRecord b) (dueIn L s) s
  | 3 => writeMask .va r (BitVec.ofNat 64 (leAt b 0 8)) L s
  | _ => writeMask .vb r (BitVec.ofNat 64 (leAt b 0 8)) L s

/-- R169, R350: whether a register range is invalid for its file. -/
def rangeBad (f a b : Nat) : Bool := decide (b < a) || decide ((if f < 3 then 15 else 7) < b)

/-- R169: cycles from issue to the end of a transfer of `n` bytes. -/
def transferCycles (n : Nat) : Nat := 3 + ceilDiv n 512

/-- R169: the transfer of a PUSHM or POPM of `len` bytes at home-window offset `va`: it stalls behind an earlier transfer, a
watermark (R114), a claimed host entry (R118) or an access that must perform first (R107). DEDUCED (assumption 27): an offset is not
translated, and a transfer that reaches past the window takes 0x66. -/
def stackAccess (va len cls : Nat) (op : AccessOp) (s : State) (k : Effect → State → Out) : Out :=
  if 0x400000 < va + len then .next (trapAt va 0x66 (BitVec.ofNat 64 va) s)
  else match xlate va len (if op.reads then .read else .write) 16 s with
  | .fail e v => .next (trapAt va e v s)
  | .ok p =>
    let a := mkAccess s cls false false va [p] op .none 0
    if s.core.cycle < s.core.act.pushBusy || blocked s [p] || !mayPerform s s.core.act.holds a then .next (stall s)
    else
      let r := performOp op [p] va s
      match r.1.failed with
      | some f => .next (trap f.1 f.2 s)
      | none =>
        k r.1 (modAct (fun c => { c with pushBusy := s.core.cycle + transferCycles len }) (touch va r.2))

/-- R169. DESIGN CHOICE (assumption 68): a form whose register range is invalid takes 0x27 before 0x25 of the same form, since with an invalid
range there is no count of registers to measure against the stack. -/
def execPushm (a b : BitVec 6) (f : BitVec 3) (s : State) : Out :=
  checked (.pushm a b f) s (fun s =>
    if rangeBad f.toNat a.toNat b.toNat then .next (trap 0x27 (BitVec.ofNat 64 (a.toNat + b.toNat * 256)) s)
    else
      let len := (b.toNat - a.toNat + 1) * recordSize f.toNat
      let c := s.core.act
      if c.ssp.toNat < c.sslim.toNat + len then .next (trap 0x25 (BitVec.ofNat 64 len) s)
      else
        let lo := c.ssp.toNat - len
        let bs := (List.range (b.toNat - a.toNat + 1)).flatMap (fun i => recordOf f.toNat (a.toNat + i) s)
        stackAccess lo len s.core.slot.xb.toNat (.store bs) s (fun _ s =>
          .next (modAct (fun c => { c with ssp := BitVec.ofNat 64 lo }) s)))

/-- R169; an invalid register range takes 0x27 before 0x26, as PUSHM's does before 0x25 (assumption 68). -/
def execPopm (a b : BitVec 6) (f : BitVec 3) (s : State) : Out :=
  checked (.popm a b f) s (fun s =>
    if rangeBad f.toNat a.toNat b.toNat then .next (trap 0x27 (BitVec.ofNat 64 (a.toNat + b.toNat * 256)) s)
    else
      let z := recordSize f.toNat
      let n := b.toNat - a.toNat + 1
      let lo := s.core.act.ssp.toNat
      if s.core.act.sstop.toNat < lo + n * z then .next (trap 0x26 (BitVec.ofNat 64 (n * z)) s)
      else stackAccess lo (n * z) s.core.slot.xb.toNat .load s (fun e s =>
        let s := (List.range n).foldl (fun s i =>
          popRecord f.toNat (a.toNat + i) (transferCycles (n * z)) ((e.data.drop (i * z)).take z) s) s
        .next (modAct (fun c => { c with ssp := underMask ssRw c.ssp (BitVec.ofNat 64 (lo + n * z)) }) s)))

/-! ### Transfers (R170, R171) -/

/-- R170: the bundle ends with a transfer to an address of the present space. -/
def transferTo (v : Nat) (s : State) : State := modAct (fun c => { c with xfer := some ⟨c.wrapAddr v, c.micro, none⟩ }) s

/-- R171: here + 16 × Imm. -/
def relative (base : Nat) (imm : Int) : Nat := toBits 64 (base + 16 * imm)

/-- R170: the return address of a call. -/
def returnAddress (s : State) : W64 := BitVec.ofNat 64 (s.core.act.wrapAddr (s.core.act.here + 16))

/-- R171 -/
def execBr (i : BitVec 15) (s : State) : Out :=
  checked (.br i) s (fun s => .next (transferTo (relative s.core.act.here (immS 15 i.toNat s.core.slot)) s))

/-- R171 -/
def execCall (d : BitVec 6) (i : BitVec 15) (s : State) : Out :=
  checked (.call d i) s (fun s =>
    .next (transferTo (relative s.core.act.here (immS 15 i.toNat s.core.slot)) (writeS d.toNat (returnAddress s) 1 s)))

/-- R171: the target is read before the link is written. -/
def execCallr (d a : BitVec 6) (s : State) : Out :=
  checked (.callr d a) s (fun s => .next (transferTo (readS a.toNat s).toNat (writeS d.toNat (returnAddress s) 1 s)))

/-- R171 -/
def execRet (a : BitVec 6) (s : State) : Out := checked (.ret a) s (fun s => .next (transferTo (readS a.toNat s).toNat s))

/-- R171 -/
def execJr (a : BitVec 6) (i : BitVec 9) (s : State) : Out :=
  checked (.jr a i) s (fun s => .next (transferTo (relative (readS a.toNat s).toNat (immS 9 i.toNat s.core.slot)) s))

/-! ### Loops (R172 to R174) -/

/-- R172: whether a bundle at `h` lies in the body of a level. -/
def Level.holds (l : Level) (h : Nat) : Bool := decide (l.start ≤ h) && decide (h ≤ l.last)

/-- R172: whether a new level's body leaves the body that encloses its LOOP. -/
def outsideBody (c : Context) (last : Nat) : Bool :=
  match c.loops with
  | [] => false
  | l :: _ => l.micro == c.micro && l.holds c.here && decide (l.last < last)

/-- R172, R350: open a level of `len` bundles and `count` iterations. DESIGN CHOICE (assumption 66): a body that runs past the end of its space goes
on at offset 0, so the level's addresses wrap there too. -/
def openLoop (len : Nat) (count : W32) (s : State) : State :=
  let c := s.core.act
  let last := c.here + 16 * len
  if count == 0 then transferTo (last + 16) s
  else if 6 ≤ c.loops.length then trap 0x11 (BitVec.ofNat 64 c.here) s
  else if outsideBody c last then trap 0x12 (BitVec.ofNat 64 c.here) s
  else modAct (fun c => { c with loops := ⟨c.wrapAddr (c.here + 16), c.wrapAddr last, count, 0, c.micro⟩ :: c.loops }) s

/-- R172 -/
def execLoop (l : BitVec 5) (a : BitVec 6) (s : State) : Out :=
  checked (.loop l a) s (fun s => .next (openLoop (l.toNat + 1) ((readS a.toNat s).setWidth 32) s))

/-- R172 -/
def execLoopImm (l : BitVec 5) (c : BitVec 12) (s : State) : Out :=
  checked (.loopImm l c) s (fun s => .next (openLoop (l.toNat + 1) (BitVec.ofNat 32 (immZ 12 c.toNat s.core.slot)) s))

/-- R174 -/
def execLoopx (k : BitVec 3) (s : State) : Out :=
  checked (.loopx k) s (fun s =>
    let n := k.toNat + 1
    match s.core.act.loops[k.toNat]? with
    | none => .next (trap 0x13 (BitVec.ofNat 64 n) s)
    | some l =>
      .next (modAct (fun c => { c with
        loops := c.loops.drop n
        xfer := some ⟨(if l.micro then (l.last + 16) % 0x8000 else (l.last + 16) % 0x40000), l.micro, none⟩ }) s))

/-! ### Repeat and micro-sequences (R177, R178) -/

/-- The bundle at an address of a space (R122). -/
def bundleIn (d : Core) (micro : Bool) (a : Nat) : BitVec 128 :=
  if micro then assocGet (a / 16) 0 (if d.half then d.cstore1 else d.cstore0) else assocGet (a / 16) 0 d.imem

/-- R177, R350: start a repeat of the bundle that is executed next. DEDUCED (assumption 73): no other slot of the bundle moves that address, and a
handler that returns elsewhere leaves the repeat with the bundle that it names. -/
def openRepeat (stride count : Nat) (s : State) : State :=
  let c := s.core.act
  let n := (nextBundle c).1
  let t : Target := ⟨n.here, n.micro, none⟩
  if (bundleOps (bundleIn s.core t.micro t.addr)).any notRepeatable then trap 0x24 (BitVec.ofNat 64 t.addr) s
  else modAct (fun c => { c.putStw 16 16 count with rep := some ⟨t.addr, stride, t.micro⟩ }) s

/-- R177 -/
def execRepv (z : BitVec 3) (a : BitVec 6) (s : State) : Out :=
  checked (.repv z a) s (fun s => .next (openRepeat z.toNat (fld (readS a.toNat s).toNat 0 16) s))

/-- R177 -/
def execRepvImm (z : BitVec 3) (c : BitVec 12) (s : State) : Out :=
  checked (.repvImm z c) s (fun s => .next (openRepeat z.toNat (immZ 12 c.toNat s.core.slot) s))

/-- R178 -/
def execLayer (n : BitVec 15) (s : State) : Out :=
  checked (.layer n) s (fun s =>
    let line := immZ 15 n.toNat s.core.slot
    if s.core.act.micro then .next (trap 0x0F (BitVec.ofNat 64 line) s)
    else if 2048 ≤ line then .next (trap 0x14 (BitVec.ofNat 64 line) s)
    else .next (modAct (fun c => { c with
      macpc := BitVec.ofNat 64 c.pc.toNat, xfer := some ⟨line * 16, true, none⟩ }) s))

/-- R178 -/
def execLret (s : State) : Out :=
  checked .lret s (fun s =>
    if !s.core.act.micro then .next (trap 0x10 0 s)
    else .next (modAct (fun c => { c with xfer := some ⟨(c.macpc.toNat + 16) % 0x40000, false, none⟩ }) s))

/-! ### Kiosk questions that YIELD asks (R46, R183, R303, R362) -/

/-- R30, R46, R303: whether a kiosk may dispatch to a core. -/
def available (s : State) (n : Nat) : Bool :=
  bit (regRaw s (0x100 + 8 * (n / 64))) (n % 64) && !s.remaps.any (fun r => r.old == n)

/-- R46: whether an entry of quad `q` admits core `n`. -/
def Entry.admits (s : State) (q n : Nat) (e : Entry) : Bool :=
  available s n && quadOf n == q && (e.saved.isSome || e.task.desc.affk != 2 || lcnOf e.task.desc.affv == n)

/-- R44: the lowest free save slot of a quad's pool. -/
def freeSlot (s : State) (q : Nat) : Option Nat :=
  let used := (kioskAt s q).slotsUsed
  (List.range (used.length + 1)).find? (fun i => !used.contains i && decide (i < fld (regRaw s (0x1000050 + q * 0x1000)) 0 16))

/-- R57, R362: whether the task of a context that leaves the active bank finds a save slot. -/
def hasSlot (s : State) (t : Task) : Bool := t.slot.isSome || (freeSlot s t.quad).isSome

/-- R183, R362: whether YIELD swaps: an entry that admits the core waits in the task's band or above, and the context can be
saved. -/
def yields (s : State) : Bool :=
  match s.core.act.task with
  | none => false
  | some t =>
    hasSlot s t && ((kioskAt s (quadOf s.lcn)).bands.drop t.desc.band).any (fun b => b.any (Entry.admits s (quadOf s.lcn) s.lcn))

/-- R183 -/
def execYield (s : State) : Out :=
  checked .yield s (fun s => .next (if yields s then modCore (fun d => { d with swapReq := d.swapReq <|> some (.yielded s.core.slot.tick) }) s else s))

/-! ### Host, power and fidelity control (R184 to R188) -/

/-- The host side of a die. -/
def ingressAt (s : State) (die : Nat) : Ingress := assocGet die ⟨[], [], 0⟩ s.ingress

/-- Update the host side of a die. -/
def modIngress (die : Nat) (f : Ingress → Ingress) (s : State) : State :=
  { s with ingress := assocPut die (f (ingressAt s die)) s.ingress }

/-- R118, R193: whether an entry may be claimed in tick `now`: no one has claimed it, and it arrived in an earlier tick. -/
def HostEntry.claimable (now : Nat) (e : HostEntry) : Bool := e.claimed.isNone && decide (e.tick < now)

/-- R118, R193: claim the first `n` entries that may be claimed in tick `now`, for the task and from the access number of `m`. -/
def claimEntries (m : Nat × Nat) (now : Nat) : Nat → List HostEntry → List HostEntry
  | 0, l => l
  | _, [] => []
  | n + 1, e :: r =>
    if e.claimable now then { e with claimed := some m } :: claimEntries m now n r else e :: claimEntries m now (n + 1) r

/-- R118, R193: claim up to `n` entries of the current core's die that arrived in an earlier tick; each then performs. -/
def claim (n : Nat) (s : State) : State :=
  let die := dieOf s.lcn
  let k := min n ((ingressAt s die).entries.filter (HostEntry.claimable (tickNow s))).length
  if k == 0 then s
  else
    let m := (s.core.act.tid, s.nextId)
    let s := modIngress die (fun g => { g with entries := claimEntries m (tickNow s) k g.entries, lastClaim := tickNow s }) s
    (List.range k).foldl (fun s _ => soon (.hostEntryPerform die) s) s

/-- R184 -/
def execHwin (n : BitVec 9) (s : State) : Out :=
  checked (.hwin n) s (fun s => .next (claim (min (immZ 9 n.toNat s.core.slot) 4096) s))

/-- R294: OPLIM of a core. -/
def opLim (s : State) (n : Nat) : Nat := fld (regRaw s (pwrctl n)) 10 3

/-- R298: whether a context holds a boost lease. -/
def Context.leased (c : Context) : Bool := c.task.any (fun t => t.lease != 0)

/-- R295: the point that a request for OPk asks for on core `n`. -/
def opWanted (s : State) (n k : Nat) : Nat :=
  min (if k == 7 && !(coreAt s n).act.leased then 6 else k) (opLim s n)

/-- R293: cycles of the target's clock that a transition settles. -/
def settleCycles (a b : Nat) : Nat := if b < a then 64 else 200 * (b - a) + 200

/-- R185, R293: core `n` starts a transition to OPk. -/
def startOp (n k : Nat) (s : State) : State :=
  let a := (coreAt s n).op
  let ends := s.time + settleCycles a k * Config.cycleUnits k
  atTime ends (.opSettled n) (modCoreAt n (fun d => { d with opMove := some ⟨k, ends⟩ }) s)

/-- R185, R295: core `n` is requested to run at OPk. -/
def requestOp (n k : Nat) (s : State) : State :=
  let b := opWanted s n k
  let d := coreAt s n
  if d.opMove.isSome then modCoreAt n (fun d => { d with opHeld := some b }) s
  else if b == d.op then s
  else startOp n b s

/-- R185 -/
def execOpsel (k : BitVec 3) (s : State) : Out := checked (.opsel k) s (fun s => .next (requestOp s.lcn k.toNat s))

/-- R356: the address of MFLIM of a core. -/
def mflim (n : Nat) : Nat := pwrctl n + 8

/-- R91, R356: the level at which matrix instructions of core `n` run. -/
def levelOf (s : State) (n : Nat) : Nat := min (coreAt s n).act.fid (fld (regRaw s (mflim n)) 0 2)

/-- R90, R91: the rails of core `n` start to move at time `t` if they do not stand at the level in force. DESIGN CHOICE (assumption 48): a
change of level during a settling starts the settling anew. -/
def settleRails (n t : Nat) (s : State) : State :=
  let d := coreAt s n
  let lv := levelOf s n
  if lv == d.rail then s
  else
    let ends := t + (if lv < d.rail then 256 else 32) * d.unit
    atTime ends (.railSettled n) (modCoreAt n (fun d => { d with rail := lv, railEnds := ends }) s)

/-- R186 -/
def execFidset (f : BitVec 2) (s : State) : Out :=
  checked (.fidset f) s (fun s => .next (settleRails s.lcn s.core.time (modAct (Context.putStw 3 2 f.toNat) s)))

/-- R299: the sensors that exist. -/
def sensorOk (n : Nat) : Bool :=
  n < 0x480 || (0x800 ≤ n && n < 0x808) || n == 0x810 || n == 0x820 || n == 0x830 || n == firmwareSensor

/-- R187: replace a subscription slot. -/
def setPsub (k : Nat) (v : Option Subscription) (s : State) : State := modAct (fun c => { c with psub := c.psub.set k v }) s

/-- R187 -/
def execPsub (a b : BitVec 6) (z : BitVec 3) (s : State) : Out :=
  checked (.psub a b z) s (fun s =>
    let w := (readS b.toNat s).toNat
    let va := (readS a.toNat s).toNat
    if bit w 49 then .next (setPsub z.toNat none s)
    else
      match xlate va 32 .write 32 s with
      | .fail e v => .next (trapAt va e v s)
      | .ok _ =>
        if !sensorOk (fld w 0 16) then .next (trap 0x91 (BitVec.ofNat 64 (fld w 0 16)) s)
        else .next (setPsub z.toNat (some ⟨fld w 0 16, signExt (fld w 16 32) 32, bit w 48, BitVec.ofNat 64 va, true⟩) (touch va s)))

/-- R188 -/
def execRdtick (d : BitVec 6) (s : State) : Out :=
  checked (.rdtick d) s (fun s => .next (writeS d.toNat (BitVec.ofNat 64 s.core.slot.tick) 1 s))

/-! ### System instructions (R189 to R191) -/

/-- R189: a software trap that follows the bundle. -/
def softTrap (code : BitVec 8) (n : Nat) (s : State) : State :=
  modAct (fun c => { c with soft := some (code, BitVec.ofNat 64 n, s.core.slot.k) }) s

/-- R189 -/
def execTrap (n : BitVec 9) (s : State) : Out :=
  checked (.trap n) s (fun s => .next (softTrap 0x15 (immZ 9 n.toNat s.core.slot) s))

/-- R189 -/
def execSvc (n : BitVec 9) (s : State) : Out :=
  checked (.svc n) s (fun s => .next (softTrap 0x16 (immZ 9 n.toNat s.core.slot) s))

/-- R190, R339; R90: a level restored with STW moves the rails. -/
def execEret (s : State) : Out :=
  checked .eret s (fun s => .next (settleRails s.lcn s.core.time (returnFromTrap s)))

/-- R101: the leaf cache of the current core without the leaves of the ASIDs that a test names. -/
def dropLeaves (p : Nat → Bool) (s : State) : State := modCore (fun d => { d with leaves := d.leaves.filter (fun l => !p l.asid) }) s

/-- R371, R368: event 0x0105 for each malformed entry of a range table. -/
def malformedRec (n asid i : Nat) : Rec := { area := 1, event := 0x0105, asid := some asid, tval := i, aux := asid, reporter := some n }

/-- R379, R382: the cause with which the read of the range table of an ASID fails. -/
def rangesFail (s : State) (e : AsidEntry) : Option (Nat × Nat) :=
  if e.rtab == 0 then none
  else if deviceBad s e.rtab 1024 then some (0x6B, e.rtab)
  else tableGone s e.rtab 1024 e.rtab

/-- R101, R371, R379, R382: read the range-table copy of the current context again; its page walks see memory as it is now. -/
def rereadRanges (s : State) : State :=
  let asid := s.core.act.asid
  match rangesFail s (asidEntry s asid) with
  | some f => trapAt (asidEntry s asid).rtab (BitVec.ofNat 8 f.1) (BitVec.ofNat 64 f.2) s
  | none =>
    let r := readRanges s asid
    let s := r.2.foldl (fun s i => record (malformedRec s.lcn asid i) s) s
    modAct (fun c => { c with ranges := r.1, tables := ⟨s.mem, s.unitKey, tickNow s⟩ }) s

/-- R191: ticks that the read of a range table takes. -/
def tableUnits (s : State) (n : Nat) (e : AsidEntry) : Nat :=
  if e.rtab == 0 then (coreAt s n).unit else (arrivalTicks s n e.rtab + 15) * Config.unitsPerTick

/-- R58, R101: a departed context of the current core whose ASID a test names, which still has work under way, sees the tables as they are
now. -/
def renewDeparted (p : Nat → Bool) (s : State) : State :=
  let c := s.core.shd
  match s.core.shadow with
  | .spilling _ _ =>
    if !p c.asid then s
    else
      match rangesFail s (asidEntry s c.asid) with
      | some f => modCore (fun d => { d with shd := d.shd.defer ⟨BitVec.ofNat 8 f.1, BitVec.ofNat 64 f.2, c.order, (asidEntry s c.asid).rtab⟩ }) s
      | none => modCore (fun d => { d with shd := { d.shd with ranges := (readRanges s c.asid).1, tables := ⟨s.mem, s.unitKey, tickNow s⟩ } }) s
  | _ => s

/-- R101, R191: invalidate the translations that a test names; with the active context's ASID among them the bundle stalls
until the copy has been read. -/
def invalidate (p : Nat → Bool) (s : State) : State :=
  let asid := s.core.act.asid
  if !p asid then renewDeparted p (dropLeaves p s)
  else
    match s.core.act.wait with
    | .timed due _ => if s.core.time < due then stall s else rereadRanges (renewDeparted p (dropLeaves p (waitOver s)))
    | _ => stallFor (.timed (s.core.time + tableUnits s s.lcn (asidEntry s asid)) []) s

/-- R191 -/
def execTlbir (a : BitVec 6) (s : State) : Out :=
  checked (.tlbir a) s (fun s =>
    let n := fld (readS a.toNat s).toNat 0 14
    .next (invalidate (fun x => x == n) s))

/-- R191. DESIGN CHOICE (assumption 69): the A field has no use here, may hold anything, and reads no register. -/
def execTlbirAll (a : BitVec 6) (s : State) : Out :=
  checked (.tlbirAll a) s (fun s => .next (invalidate (fun _ => true) s))

end Sys2Proof.Machine
end

