-- ==== Sys2Proof/Machine/Tasks.lean ====
section
/-! DEFINITION. Task instructions (R179 to R182): spawning, ending, joining and waiting; the fields of a descriptor (R34) and
its checks (R348). -/

namespace Sys2Proof.Machine

/-! ### Descriptors (R34, R348) -/

/-- R34: a descriptor from its 64 bytes. -/
def parseDescriptor (b : List Byte) : Descriptor :=
  let w0 := leAt b 0x38 4
  let w1 := leAt b 0x3C 4
  { plist := BitVec.ofNat 64 (leAt b 0 8), joinp := BitVec.ofNat 64 (leAt b 8 8), budget := fld (leAt b 0x10 8) 0 48
    args := [0x18, 0x20, 0x28, 0x30].map (fun o => BitVec.ofNat 64 (leAt b o 8))
    pc := BitVec.ofNat 18 w0, affv := fld w0 18 11, affk := fld w1 22 2, asid := fld w1 0 14, band := fld w1 14 2
    fid := fld w1 16 2, wdef := fld w1 18 4 }

/-- R30: whether AVAILMAP has a core. -/
def availBit (s : State) (n : Nat) : Bool := bit (regRaw s (0x100 + 8 * (n / 64))) (n % 64)

/-- R348: whether AFFV names a quad or core with an available core. -/
def affinityOk (s : State) (d : Descriptor) : Bool :=
  match d.affk with
  | 0 => true
  | 1 => populated d.affv && [0, 1, 2, 3].any (fun i => availBit s (quadOfCid d.affv * 4 + i))
  | 2 => populated d.affv && availBit s (lcnOf d.affv)
  | _ => false

/-- R348, R410: whether an ASID is enabled. -/
def asidEnabled (s : State) (a : Nat) : Bool := (asidEntry s a).en

/-- R348: the defects of a descriptor with the offset of the byte each makes bad, ascending. -/
def descriptorDefects (s : State) (b : List Byte) : List (Nat × Bool) :=
  let d := parseDescriptor b
  let w0 := leAt b 0x38 4
  let w1 := leAt b 0x3C 4
  [(0x16, leAt b 0x16 1 != 0), (0x17, leAt b 0x17 1 != 0), (0x38, fld w0 0 4 != 0),
   (0x3A, d.affk != 3 && !affinityOk s d), (0x3B, fld w0 29 3 != 0), (0x3C, !asidEnabled s d.asid),
   (0x3E, d.affk == 3), (0x3F, fld w1 24 8 != 0)]

/-- R348: the offset of the first bad byte of a descriptor. -/
def descriptorBad (s : State) (b : List Byte) : Option Nat := ((descriptorDefects s b).find? Prod.snd).map Prod.fst

/-- R37: the quad whose kiosk takes a descriptor that reaches quad `q` first. -/
def homeKiosk (q : Nat) (d : Descriptor) : Nat := if d.affk == 0 then q else quadOfCid d.affv

/-- R39: the bound on acceptance, from a source in quad `q` to a kiosk in quad `r`. -/
def acceptBound (q r : Nat) : Nat := if q == r then 16 else if dieOfQuad q == dieOfQuad r then 96 else 192

/-- R37, R39: deliver a descriptor of the current core's task. -/
def deliverSpawn (b : List Byte) (s : State) : State :=
  let q := homeKiosk (quadOf s.lcn) (parseDescriptor b)
  within (acceptBound (quadOf s.lcn) q) (.taskAcceptance q (.core s.lcn s.core.act.tid) b) s

/-- R179, R348 -/
def execTspawn (a : BitVec 6) (s : State) : Out :=
  checked (.tspawn a) s (fun s =>
    if s.core.act.wait == .none && !allPerformed s s.core.act.tid then .next (stall s)
    else
      awaitAccess (readS a.toNat s).toNat 64 .read false true .load 4 s (fun b s =>
        match descriptorBad s b with
        | some o => .next (trap 0x8C (BitVec.ofNat 64 o) s)
        | none => .next (deliverSpawn b s)))

/-! ### Ending (R180) -/

/-- Both copy engines of a core. -/
def Core.engines (d : Core) : List CopyEngine := [d.engine0, d.engine1]

/-- R250: whether an engine runs a command of task `t`. -/
def CopyEngine.runs (t : Nat) (e : CopyEngine) : Bool := e.running.any (fun r => r.cmd.taskid == t)

/-- R180: whether the active context has an access, a stack transfer, a copy or a stream that is not over. -/
def undrained (s : State) : Bool :=
  let c := s.core.act
  !allPerformed s c.tid || decide (s.core.cycle < c.pushBusy) ||
    s.core.engines.any (fun e => e.runs c.tid || e.buffer.any (fun k => k.taskid == c.tid)) ||
    s.others.any (fun e => e.2.engines.any (fun g => g.runs c.tid)) || c.handles.any (fun h => !h.streams.isEmpty)

/-- R180, R61: TEXIT asks for the join update and for the swap that ends the task. -/
def exitTask (st : W64) (s : State) : State :=
  let c := s.core.act
  let s := match c.task with
    | some t => if t.desc.joinp == 0 then s else soon (.joinUpdate s.lcn t.taskid st) s
    | none => s
  modCore (fun d => { d with swapReq := some .exited }) s

/-- R180 -/
def execTexit (a : BitVec 6) (s : State) : Out :=
  checked (.texit a) s (fun s => if undrained s then .next (stall s) else .next (exitTask (readS a.toNat s) s))

/-! ### Waiting (R181, R182) -/

/-- R181: what TJOIN returns of a join word. -/
def joinValue (w : List Byte) : W64 := BitVec.ofNat 64 (leAt w 8 4 + leAt w 12 1 * 2 ^ 32 + leAt w 14 2 * 2 ^ 40)

/-- R61: whether the children counted reach the target. -/
def joinDone (w : List Byte) : Bool := decide (leAt w 4 4 ≤ leAt w 0 4)

/-- R181 -/
def execTjoin (d a : BitVec 6) (s : State) : Out :=
  checked (.tjoin d a) s (fun s =>
    awaitAccess (readS a.toNat s).toNat 16 .read true false .load 4 s (fun w s =>
      if joinDone w then .next (writeS d.toNat (joinValue w) 1 s) else .next (stall s)))

/-- R182, R406: a WAIT stalls until the word at an address passes a test. A word in the home window is tested in every cycle, by a read that
performs there and then; another takes the time of a load for each test. -/
def waitUntil (va : Nat) (test : List Byte → Bool) (s : State) : Out :=
  if isHome va 16 && s.core.act.wait == .none then
    oneAccess va 16 .read 16 .load s (fun p s =>
      let a := mkAccess s s.core.slot.xb.toNat true false va [p] .load .none 0
      .next (if mayPerform s s.core.act.holds a && test (readPieces s [p]) then s else stall s))
  else awaitAccess va 16 .read true false .load 4 s (fun w s => .next (if test w then s else stall s))

/-- R182: GEN of a sync word differs from the value given. -/
def execWaitSw (z : BitVec 3) (a b : BitVec 6) (s : State) : Out :=
  checked (.waitSw z a b) s (fun s =>
    waitUntil (readS a.toNat s).toNat (fun w => leAt w 6 2 != fld (readS b.toNat s).toNat 0 16) s)

/-- R182: PHASE of a slot differs from the value given. -/
def execWaitBs (z : BitVec 3) (a b : BitVec 6) (s : State) : Out :=
  checked (.waitBs z a b) s (fun s =>
    waitUntil (readS a.toNat s).toNat (fun w => leAt w 14 1 != fld (readS b.toNat s).toNat 0 8) s)

end Sys2Proof.Machine
end

