-- ==== Sys2Proof/Machine/ScalarMem.lean ====
section
/-! DEFINITION. Scalar loads, stores, atomics, fences, draining, barrier slots and barrier networks (R244 to R252). -/

namespace Sys2Proof.Machine

/-! ### Loads and stores (R244, R245) -/

/-- R244: the offset of the address form: `f` 1 is the ordered form, whose scope is in the upper bits. -/
def addrOffset (f : BitVec 1) (i : BitVec 8) (z : Nat) : Int :=
  if f == 1 then signExt (fld i.toNat 0 5) 5 * z else signExt i.toNat 8 * z

/-- R106: the scope of a code; LANE to POD. -/
def scopeOf (n : Nat) : Scope :=
  match n with
  | 0 => .lane
  | 1 => .core
  | 2 => .quad
  | 3 => .die
  | 4 => .pkg
  | _ => .pod

/-- R245: whether the scope of an ordered form, in bits [7:5], is POD. -/
def podScope (f : BitVec 1) (i : BitVec 8) : Bool := f == 1 && scopeOf (fld i.toNat 5 3) == .pod

/-- R244: the address operand. -/
def addrOf (a : BitVec 6) (f : BitVec 1) (i : BitVec 8) (z : Nat) (s : State) : Nat :=
  (readS a.toNat s + BitVec.ofInt 64 (addrOffset f i z)).toNat

/-- R245: a load of `z` bytes. -/
def loadOp (i : Instr) (d a : BitVec 6) (f : BitVec 1) (m : BitVec 8) (z : Nat) (signed : Bool) (s : State) : Out :=
  checked i s (fun s =>
    let va := addrOf a f m z s
    oneAccess va z .read z .load s (fun p s =>
      let home := isHome va z
      let acc := { mkAccess s s.core.slot.xb.toNat (f == 1) false va [p] .load (scalarReturn s d.toNat z signed)
        (answerUnits s home 4 [p]) with pod := podScope f m }
      .next (scalarAccess home acc d.toNat (fun bs => scalarValue bs z signed) 4 false s)))

/-- R245: a store of `z` bytes. -/
def storeOp (i : Instr) (d a : BitVec 6) (f : BitVec 1) (m : BitVec 8) (z : Nat) (s : State) : Out :=
  checked i s (fun s =>
    let va := addrOf a f m z s
    let op : AccessOp := .store (toBytes z (readS d.toNat s).toNat)
    oneAccess va z .write z op s (fun p s =>
      let home := isHome va z
      .next (makeAccess home
        { mkAccess s s.core.slot.xb.toNat false (f == 1) va [p] op .none (answerUnits s home 1 [p]) with pod := podScope f m } s)))

/-- R245 -/
def execLdbS (d a : BitVec 6) (f : BitVec 1) (i : BitVec 8) (s : State) : Out := loadOp (.ldbS d a f i) d a f i 1 true s
/-- R245 -/
def execLdbU (d a : BitVec 6) (f : BitVec 1) (i : BitVec 8) (s : State) : Out := loadOp (.ldbU d a f i) d a f i 1 false s
/-- R245 -/
def execLdhS (d a : BitVec 6) (f : BitVec 1) (i : BitVec 8) (s : State) : Out := loadOp (.ldhS d a f i) d a f i 2 true s
/-- R245 -/
def execLdhU (d a : BitVec 6) (f : BitVec 1) (i : BitVec 8) (s : State) : Out := loadOp (.ldhU d a f i) d a f i 2 false s
/-- R245 -/
def execLdwS (d a : BitVec 6) (f : BitVec 1) (i : BitVec 8) (s : State) : Out := loadOp (.ldwS d a f i) d a f i 4 true s
/-- R245 -/
def execLdwU (d a : BitVec 6) (f : BitVec 1) (i : BitVec 8) (s : State) : Out := loadOp (.ldwU d a f i) d a f i 4 false s
/-- R245 -/
def execLddS (d a : BitVec 6) (f : BitVec 1) (i : BitVec 8) (s : State) : Out := loadOp (.lddS d a f i) d a f i 8 true s
/-- R245 -/
def execLddU (d a : BitVec 6) (f : BitVec 1) (i : BitVec 8) (s : State) : Out := loadOp (.lddU d a f i) d a f i 8 false s
/-- R245 -/
def execStb (d a : BitVec 6) (f : BitVec 1) (i : BitVec 8) (s : State) : Out := storeOp (.stb d a f i) d a f i 1 s
/-- R245 -/
def execSth (d a : BitVec 6) (f : BitVec 1) (i : BitVec 8) (s : State) : Out := storeOp (.sth d a f i) d a f i 2 s
/-- R245 -/
def execStw (d a : BitVec 6) (f : BitVec 1) (i : BitVec 8) (s : State) : Out := storeOp (.stw d a f i) d a f i 4 s
/-- R245 -/
def execStd (d a : BitVec 6) (f : BitVec 1) (i : BitVec 8) (s : State) : Out := storeOp (.std d a f i) d a f i 8 s

/-! ### Atomics (R246, R247) -/

/-- R246: an atomic on `z` bytes with ordering code `q`. -/
def atomicOp (i : Instr) (d a b : BitVec 6) (z : Nat) (q : BitVec 2) (op : State → AtomicOp) (s : State) : Out :=
  checked i s (fun s =>
    let va := (readS a.toNat s).toNat
    let o : AccessOp := .atomic (op s) (readS b.toNat s)
    oneAccess va z .atomic z o s (fun p s =>
      let home := isHome va z
      let acc := { mkAccess s s.core.slot.xb.toNat (bit q.toNat 0) (bit q.toNat 1) va [p] o (scalarReturn s d.toNat z false)
        (answerUnits s home 6 [p]) with pod := pkgOf p.pa != pkgId s }
      .next (scalarAccess home acc d.toNat (fun bs => scalarValue bs z false) 6 (op s == .fadd32) s)))

/-- R246: the width in bytes. -/
def atomicWidth (w : BitVec 1) : Nat := if w == 1 then 8 else 4

/-- R246 -/
def execCas (d a b : BitVec 6) (q : BitVec 2) (w : BitVec 1) (s : State) : Out :=
  atomicOp (.cas d a b q w) d a b (atomicWidth w) q (fun s => .cas (readS d.toNat s)) s
/-- R246 -/
def execAmoAdd (d a b : BitVec 6) (q : BitVec 2) (w : BitVec 1) (s : State) : Out :=
  atomicOp (.amoAdd d a b q w) d a b (atomicWidth w) q (fun _ => .add) s
/-- R246 -/
def execAmoAnd (d a b : BitVec 6) (q : BitVec 2) (w : BitVec 1) (s : State) : Out :=
  atomicOp (.amoAnd d a b q w) d a b (atomicWidth w) q (fun _ => .and) s
/-- R246 -/
def execAmoOr (d a b : BitVec 6) (q : BitVec 2) (w : BitVec 1) (s : State) : Out :=
  atomicOp (.amoOr d a b q w) d a b (atomicWidth w) q (fun _ => .or) s
/-- R246 -/
def execAmoXor (d a b : BitVec 6) (q : BitVec 2) (w : BitVec 1) (s : State) : Out :=
  atomicOp (.amoXor d a b q w) d a b (atomicWidth w) q (fun _ => .xor) s
/-- R246 -/
def execAmoMin (d a b : BitVec 6) (q : BitVec 2) (w : BitVec 1) (s : State) : Out :=
  atomicOp (.amoMin d a b q w) d a b (atomicWidth w) q (fun _ => .min) s
/-- R246 -/
def execAmoMax (d a b : BitVec 6) (q : BitVec 2) (w : BitVec 1) (s : State) : Out :=
  atomicOp (.amoMax d a b q w) d a b (atomicWidth w) q (fun _ => .max) s
/-- R246 -/
def execAmoMinu (d a b : BitVec 6) (q : BitVec 2) (w : BitVec 1) (s : State) : Out :=
  atomicOp (.amoMinu d a b q w) d a b (atomicWidth w) q (fun _ => .minu) s
/-- R246 -/
def execAmoMaxu (d a b : BitVec 6) (q : BitVec 2) (w : BitVec 1) (s : State) : Out :=
  atomicOp (.amoMaxu d a b q w) d a b (atomicWidth w) q (fun _ => .maxu) s
/-- R246 -/
def execAmoSwap (d a b : BitVec 6) (q : BitVec 2) (w : BitVec 1) (s : State) : Out :=
  atomicOp (.amoSwap d a b q w) d a b (atomicWidth w) q (fun _ => .swap) s
/-- R246: the .W form alone. -/
def execAmoFadd32 (d a b : BitVec 6) (q : BitVec 2) (s : State) : Out :=
  atomicOp (.amoFadd32 d a b q) d a b 4 q (fun _ => .fadd32) s

/-! ### Fences and draining (R248 to R250) -/

/-- R248: the accesses a FENCE waits for; fences whose accesses have all performed are dropped. -/
def addHold (mask : BitVec 16) (pod : Bool) (s : State) : State :=
  let mine := s.accesses.filter (fun a => a.taskid == s.core.act.tid)
  let live := s.core.act.holds.filter (fun h => mine.any h.waitsOn)
  let ws := (mine.filter (fun a => bit mask.toNat a.cls && (!a.performed || (pod && a.sent.isSome && !a.answered)))).map Access.id
  modAct (fun c => { c with holds := if ws.isEmpty then live else live ++ [⟨mask, ws, pod⟩] }) s

/-- R248 -/
def execFence (z : BitVec 3) (m : BitVec 16) (s : State) : Out :=
  checked (.fence z m) s (fun s => .next (addHold m (scopeOf z.toNat == .pod) s))

/-- R249: whether a local address lies in the instruction-memory or control-store window of core `n`. -/
def inWindow (n a : Nat) : Bool :=
  let c := cidOf n
  (decide (0x40000000 + c * 0x40000 ≤ a) && decide (a < 0x40000000 + (c + 1) * 0x40000)) ||
    (decide (0x60000000 + c * 0x10000 ≤ a) && decide (a < 0x60000000 + (c + 1) * 0x10000))

/-- R253: bytes of an element. -/
def elemSize (f : Nat) : Nat :=
  if f == 6 then 18 else if f == 7 then 12 else if f == 8 || f == 12 then 8
  else if [2, 3, 10].contains f then 2 else if [4, 5, 9].contains f then 1 else 4

/-- R257: bytes of a row. -/
def Command.row (k : Command) : Nat := k.staging.n.getD 0 1 * elemSize k.staging.efmt

/-- R257: the addresses of a nest's rows in the order of the nest; level 1 first in the lists of counts and strides. -/
def nestRows : List Nat → List Int → Int → List Int
  | n :: ns, z :: zs, d => (nestRows ns zs d).flatMap (fun x => (List.range n).map (fun i : Nat => x + (i : Int) * z))
  | _, _, d => [d]

/-- R257: how many rows come before the loop counters of a nest. -/
def rowsBefore : List Nat → List Nat → Nat
  | n :: ns, i :: is => i + n * rowsBefore ns is
  | _, _ => 0

/-- R257: a span cut at multiples of 64, at which every boundary of a mapping lies: each byte is translated for itself. -/
def chunks (va len : Nat) : List (Nat × Nat) :=
  (List.range ((va + len - 1) / 64 - va / 64 + 1)).map (fun i =>
    let lo := max va ((va / 64 + i) * 64)
    (lo, min (va + len) ((va / 64 + i + 1) * 64) - lo))

/-- R249: whether rows `skip` and later of a command go to a window of core `s.lcn`. -/
def rowsReach (s : State) (skip : Nat) (k : Command) : Bool :=
  k.row != 0 && ((nestRows (k.staging.n.drop 1) (k.staging.ds.drop 1) k.staging.dst.toNat).drop skip).any (fun d =>
    (chunks (d % 2 ^ 64).toNat k.row).any (fun x =>
      match xlate (x.1 % 2 ^ 64) x.2 .write 1 s with
      | .ok p => pkgOf p.pa == pkgId s && inWindow s.lcn (localOf p.pa)
      | .fail _ _ => false))

/-- R249: whether bursts that the engines have yet to issue for the context write to a window of its core. -/
def copiesReach (s : State) : Bool :=
  let t := s.core.act.tid
  (allCores s).any (fun e => e.2.engines.any (fun g =>
    g.buffer.any (fun k => k.taskid == t && rowsReach s 0 k) ||
      g.running.any (fun r => r.cmd.taskid == t && !r.issued && rowsReach s (rowsBefore (r.cmd.staging.n.drop 1) r.idx) r.cmd)))

/-- R249: whether an operation writes. -/
def AccessOp.writes : AccessOp → Bool
  | .load | .barrier _ _ _ => false
  | _ => true

/-- R249: whether an earlier write of the context to a window of its core has not performed. -/
def windowPending (s : State) : Bool :=
  let mine (ps : List Piece) : Bool := ps.any (fun p => pkgOf p.pa == pkgId s && inWindow s.lcn (localOf p.pa))
  (pendingOf s s.core.act.tid).any (fun a => a.op.writes && mine a.pieces) ||
    s.bursts.any (fun b => b.taskid == s.core.act.tid && mine b.dst) || copiesReach s

/-- R249: bundles are fetched when they issue, so nothing fetched earlier is left to discard. -/
def execSynci (s : State) : Out :=
  checked .synci s (fun s => if windowPending s then .next (stall s) else .next s)

/-- R250, R302: whether an engine of another core, which task `t` has left, still runs a command of it. -/
def copiesElsewhere (s : State) (t : Nat) : Bool := s.others.any (fun e => e.2.engines.any (fun g => g.runs t))

/-- R250: whether an access, a stack transfer or a copy past its issue tick is not over; `all` takes in the copies that
wait and the streams. -/
def unsettled (all : Bool) (s : State) : Bool :=
  let c := s.core.act
  !allPerformed s c.tid || decide (s.core.cycle < c.pushBusy) || copiesElsewhere s c.tid ||
    s.core.engines.any (fun e => e.runs c.tid ||
      e.buffer.any (fun k => k.taskid == c.tid && (all || decide (k.tick ≤ tickNow s)))) ||
    (all && c.handles.any (fun h => !h.streams.isEmpty))

/-- R250: the segments on their way: handle, stream and bytes committed before the segment. -/
def segmentsBegun (c : Context) : List (Nat × Nat × Nat) :=
  (List.range 8).filterMap (fun h =>
    let v := c.handles.getD h Handle.free
    if v.running then v.streams.head?.map (fun r => (h, r.order, r.committed)) else none)

/-- R250: whether a segment noted by SYNCA is still on its way. -/
def segmentLeft (c : Context) (g : Nat × Nat × Nat) : Bool := (segmentsBegun c).contains g

/-- R250 -/
def execSynca (s : State) : Out :=
  checked .synca s (fun s =>
    let l := match s.core.act.wait with
      | .segments l => l
      | _ => segmentsBegun s.core.act
    if unsettled false s || l.any (segmentLeft s.core.act) then .next (stallFor (.segments l) s) else .next (waitOver s))

/-- R250 -/
def execSyncaAll (s : State) : Out :=
  checked .syncaAll s (fun s => if unsettled true s then .next (stall s) else .next s)

/-! ### Barrier slots (R251) -/

/-- R251 -/
def execBars (z : BitVec 3) (a b : BitVec 6) (s : State) : Out :=
  checked (.bars z a b) s (fun s =>
    let va := (readS a.toNat s).toNat
    let n := fld (readS b.toNat s).toNat 0 32
    let op : AccessOp := .arm n z.toNat
    match xlate va 16 .write 16 s with
    | .fail e v => .next (trapAt va e v s)
    | .ok p =>
      if n == 0 then .next (trap 0x86 (BitVec.ofNat 64 va) s)
      else
        reach [p] va op s (fun s =>
          let home := isHome va 16
          .next (makeAccess home (mkAccess s s.core.slot.xb.toNat false false va [p] op .none (answerUnits s home 1 [p])) s)))

/-- R251 -/
def execBara (d a b : BitVec 6) (s : State) : Out :=
  checked (.bara d a b) s (fun s =>
    awaitAccess (readS a.toNat s).toNat 16 .atomic false true (.arrive (signExt (fld (readS b.toNat s).toNat 0 48) 48)) 6 s
      (fun w s => .next (writeS d.toNat (BitVec.ofNat 64 (leAt w 14 1)) 1 s)))

/-- R251 -/
def execBarrt (a : BitVec 6) (s : State) : Out :=
  checked (.barrt a) s (fun s =>
    let va := (readS a.toNat s).toNat
    oneAccess va 16 .write 16 .retire s (fun p s =>
      let home := isHome va 16
      .next (makeAccess home (mkAccess s s.core.slot.xb.toNat false false va [p] .retire .none (answerUnits s home 1 [p])) s)))

/-! ### Barrier networks (R63 to R65, R252) -/

/-- R63: the place of the network of a scope that contains core `n`. -/
def barrierPlace (z : Scope) (n : Nat) : Nat :=
  match z with
  | .quad => quadOf n
  | .die => dieOf n
  | _ => 0

/-- R64: the BARCFG of an identifier, of the network of that scope that contains core `n`. -/
def barcfgAddr (z : Scope) (n id : Nat) : Nat := barcfgAt z (barrierPlace z n) id

/-- R64, R353: whether BARN at an identifier of a scope takes 0x87. -/
def barrierBad (z : BitVec 3) (id : Nat) (s : State) : Bool :=
  let cfg := regRaw s (barcfgAddr (scopeOf z.toNat) s.lcn id)
  !bit cfg 35 || fld cfg 0 21 == 0 || fld cfg 21 14 != s.core.act.asid

/-- R109, R284: whether the arrival of the current context, a release, may be made: every earlier access has performed, and at POD
scope has been acknowledged. -/
def mayArrive (sc : Scope) (s : State) : Bool :=
  allPerformed s s.core.act.tid && !(sc == .pod && unackedBefore s s.core.act.tid s.nextId)

/-- R252, R64, R353: arrive at an identifier, or take 0x87 where the ASID may not; `k` is given the generation to pass. -/
def barrierArrive (z : BitVec 3) (id : Nat) (s : State) (k : Nat → State → Out) : Out :=
  let sc := scopeOf z.toNat
  if z.toNat ≤ 1 then .next s
  else if barrierBad z id s then .next (trap 0x87 (BitVec.ofNat 64 (z.toNat + id * 16)) s)
  else if !mayArrive sc s then .next (stall s)
  else
    let b := barrierAt s sc (barrierPlace sc s.lcn) id
    k (b.gen + b.releasing) (barrierCount sc (barrierPlace sc s.lcn) id s)

/-- R252 -/
def execBarn (z : BitVec 3) (b : BitVec 4) (s : State) : Out :=
  checked (.barn z b) s (fun s =>
    match s.core.act.wait with
    | .barrier sc pl id gen =>
      if (barrierAt s sc pl id).gen ≤ gen then .next (stall s) else .next (waitOver s)
    | _ => barrierArrive z b.toNat s (fun gen s => .next (stallFor (.barrier (scopeOf z.toNat) (barrierPlace (scopeOf z.toNat) s.lcn) b.toNat gen) s)))

/-- R252: with earlier accesses still to perform the arrival follows them, and the bundle commits. -/
def execBarnA (z : BitVec 3) (b : BitVec 4) (s : State) : Out :=
  checked (.barnA z b) s (fun s =>
    let sc := scopeOf z.toNat
    if z.toNat ≤ 1 || barrierBad z b.toNat s || mayArrive sc s then barrierArrive z b.toNat s (fun _ s => .next s)
    else
      let op : AccessOp := .barrier sc (barrierPlace sc s.lcn) b.toNat
      let a := { mkAccess s 0 false true 0 [] op .none 0 with pod := sc == .pod }
      .next (soon (.accessPerform a.id) { s with accesses := s.accesses ++ [a], nextId := s.nextId + 1 }))

end Sys2Proof.Machine
end

