-- ==== Sys2Proof/Machine/Circuits.lean ====
section
/-! DEFINITION. Circuit control and network posting (R261, R262, R265, R266). -/

namespace Sys2Proof.Machine

/-! ### Handles and lanterns (R261, R262) -/

/-- The handle that a number of the active context names. -/
def Context.handle (h : Nat) (c : Context) : Handle := c.handles.getD h Handle.free

/-- Replace a handle of a context. -/
def Context.setHandle (h : Nat) (v : Handle) (c : Context) : Context := { c with handles := c.handles.set h v }

/-- Replace a handle of the active context. -/
def setHandle (h : Nat) (v : Handle) (s : State) : State := modAct (Context.setHandle h v) s

/-- A handle that has become FREE. -/
def Handle.freed (v : Handle) : Handle := { Handle.free with gen := v.gen + 1 }

/-- R262, R280: every slot held for an owner is released, and its lantern, if any, is abandoned. -/
def releaseOwner (o : CircuitOwner) (s : State) : State :=
  { s with held := s.held.filter (fun x => x.owner != o), lanterns := s.lanterns.filter (fun l => l.owner != o) }

/-- R262, R279: launch the lantern of a COPEN from core `src`. -/
def launch (o : CircuitOwner) (src dst label : Nat) (s : State) : State :=
  let i := freshId s
  let s := { i.2 with lanterns := i.2.lanterns ++ [⟨i.1, o, src, dst, label, [], 0, 0, .probe, tickNow s⟩] }
  inTicks 2048 (.lanternTimeout i.1) (inTicks 4 (.lanternHop i.1) s)

/-- R262: the lease granted. -/
def grantLease (req : Nat) : Nat := if req == 0 then 1048576 else min req Config.leaseMax

/-- R262, R303: the core a CID resolves to. -/
def resolveCid (s : State) (cid : Nat) : Nat := remapFrom s.remaps (lcnOf cid)

/-- R353: whether COPEN takes 0x8A. -/
def farBad (s : State) (cid : Nat) : Bool :=
  !populated cid || resolveCid s cid == s.lcn || s.core.act.task.any (fun t => lcnOf cid == t.logical)

/-- R262: the lowest FREE handle. -/
def freeHandle (c : Context) : Option Nat := findIdx (fun (h : Handle) => h.st == .free) c.handles 0

/-- R262 -/
def execCopen (d a b : BitVec 6) (s : State) : Out :=
  checked (.copen d a b) s (fun s =>
    let cid := fld (readS a.toNat s).toNat 0 11
    if farBad s cid then .next (trap 0x8A (BitVec.ofNat 64 cid) s)
    else
      match freeHandle s.core.act with
      | none => .next (writeS d.toNat 0xFF 1 s)
      | some h =>
        let g := grantLease (fld (readS b.toNat s).toNat 0 32)
        let far := resolveCid s cid
        let s := setHandle h ⟨.pending, far, 0, g, [], false, false, (s.core.act.handle h).gen + 1⟩ s
        let s := launch (.handle s.core.act.tid h) s.lcn far s.core.act.staging0.label.toNat s
        .next (writeS d.toNat (BitVec.ofNat 64 (h + g * 256)) 1 s))

/-- R261, R262: lease ticks that CSTAT shows. -/
def Handle.leaseLeft (tick : Nat) (h : Handle) : Nat :=
  match h.st with
  | .pending => h.lease
  | .opened | .closing => h.lease - tick
  | _ => 0

/-- R262 -/
def execChold (d a b : BitVec 6) (s : State) : Out :=
  checked (.chold d a b) s (fun s =>
    let n := fld (readS a.toNat s).toNat 0 3
    let h := s.core.act.handle n
    if h.st == .opened && !h.expired then
      let r := min (h.leaseLeft (tickNow s) + fld (readS b.toNat s).toNat 0 32) Config.leaseMax
      let s := setHandle n { h with lease := tickNow s + r } s
      let s := atTime ((tickNow s + r) * Config.unitsPerTick) (.circuitLeaseExpiry s.core.act.tid n) s
      .next (writeS d.toNat (BitVec.ofNat 64 r) 1 s)
    else .next (writeS d.toNat 0 1 s))

/-- R262 -/
def execCclose (a : BitVec 6) (s : State) : Out :=
  checked (.cclose a) s (fun s =>
    let n := fld (readS a.toNat s).toNat 0 3
    let h := s.core.act.handle n
    let o : CircuitOwner := .handle s.core.act.tid n
    .next (match h.st with
      | .opened => if h.streams.isEmpty then releaseOwner o (setHandle n h.freed s) else setHandle n { h with st := .closing } s
      | .pending => releaseOwner o (setHandle n h.freed s)
      | .refused | .lost => setHandle n h.freed s
      | .free | .closing => s))

/-- R261: the code of a handle's state. -/
def HandleState.code : HandleState → Nat
  | .free => 0
  | .pending => 1
  | .opened => 2
  | .closing => 3
  | .refused => 4
  | .lost => 5

/-- R262: the status word. -/
def Handle.status (tick : Nat) (h : Handle) : Nat :=
  h.st.code + h.back * 2 ^ 8 + min (h.leaseLeft tick) 0xFFFFFFFF * 2 ^ 16 + h.streams.length * 2 ^ 48

/-- R262 -/
def execCstat (d a : BitVec 6) (s : State) : Out :=
  checked (.cstat d a) s (fun s =>
    let h := s.core.act.handle (fld (readS a.toNat s).toNat 0 3)
    .next (writeS d.toNat (BitVec.ofNat 64 (h.status (tickNow s))) 1 s))

/-! ### Network posting (R265, R266, R288) -/

/-- R288: the endpoint table of an ASID and how many endpoints it has; with EPDIR 0 no directory is installed. -/
def endpointTable (s : State) (asid : Nat) : Nat × Nat :=
  let base := fld (regRaw s 0x2301000) 6 50 * 64
  if base == 0 then (0, 0)
  else
    let b := readPlain s (base + 16 * asid) 16
    (leAt b 0 8, leAt b 8 2)

/-- R353: the offset of the first bad field of a work request. -/
def requestBad (s : State) (asid : Nat) (b : List Byte) : Option Nat :=
  let port := leAt b 1 1
  if 2 < leAt b 0 1 then some 0x00
  else if 7 < port && port != 0xFF then some 0x01
  else if 2 ^ 31 < leAt b 4 4 then some 0x04
  else if (endpointTable s asid).2 ≤ leAt b 0x18 4 then some 0x18
  else none

/-- R288: the bytes of the endpoint entry that the PEER of a request names. -/
def endpointOf (s : State) (asid : Nat) (b : List Byte) : List Byte := readPlain s ((endpointTable s asid).1 + 32 * leAt b 0x18 4) 32

/-- R265, R288: the port of a request. -/
def requestPort (s : State) (asid : Nat) (b : List Byte) : Nat :=
  if leAt b 1 1 == 0xFF then fld (leAt (endpointOf s asid b) 0x14 1) 0 3 else leAt b 1 1

/-- The engines of an I/O die. -/
def netAt (s : State) (e : Nat) : NetEngine := if e == 0 then s.net0 else s.net1

/-- Replace the engines of an I/O die. -/
def setNet (e : Nat) (v : NetEngine) (s : State) : State := if e == 0 then { s with net0 := v } else { s with net1 := v }

/-- R266: a request as the engine holds it. -/
def parseRequest (b : List Byte) (seq port : Nat) (s : State) : NetRequest :=
  let p := endpointOf s s.core.act.asid b
  { seq := seq, taskid := s.core.act.tid, lcn := s.lcn, asid := s.core.act.asid, op := leAt b 0 1, port := port, len := leAt b 4 4
    laddr := BitVec.ofNat 64 (leAt b 8 8), raddr := BitVec.ofNat 64 (leAt b 0x10 8), peer := leAt b 0x18 4
    rkey := BitVec.ofNat 32 (leAt b 0x1C 4), csw := BitVec.ofNat 64 (leAt b 0x20 8), immv := BitVec.ofNat 64 (leAt b 0x28 8), done := 0
    order := s.core.act.order, posted := s.nextId, addr := leAt p 0 16, job := leAt p 0x10 4, mode := leAt p 0x15 1, kslot := leAt p 0x16 2 }

/-- R287: the transport operation of a request. -/
def NetRequest.operation (r : NetRequest) : NetOut :=
  match r.op with
  | 0 => .send r.seq r.port r.addr r.job r.kslot r.immv r.len
  | 1 => .write r.seq r.port r.addr r.job r.kslot r.raddr r.rkey r.len
  | _ => .read r.seq r.port r.addr r.job r.kslot r.raddr r.rkey r.len

/-- R266: the engine accepts a request and forms its operation; the answer is its sequence number. -/
def postRequest (b : List Byte) (s : State) : Nat × State :=
  let port := requestPort s s.core.act.asid b
  let e := port / 4
  let n := netAt s e
  let r := parseRequest b n.seq port s
  (n.seq, setNet e ⟨n.queue ++ [r], n.seq + 1, n.out ++ [r.operation]⟩ { s with nextId := s.nextId + 1 })

/-- R266: whether the engine of a request can take no other: how many requests it holds is open; one that holds none takes one. -/
def engineRefuses (b : List Byte) (s : State) : Bool :=
  let e := requestPort s s.core.act.asid b / 4
  !(netAt s e).queue.isEmpty && Config.engineFull e (netAt s e).queue.length

/-- R266: whether a request that has been read waits for a place in its engine's queue. -/
def postWaits (s : State) : Bool :=
  match s.core.act.wait with
  | .access id _ =>
    (accessAt s id).any (fun a => a.answered && a.failed.isNone && (requestBad s s.core.act.asid a.data).isNone && engineRefuses a.data s)
  | _ => false

/-- R266 -/
def execNpost (d a : BitVec 6) (s : State) : Out :=
  checked (.npost d a) s (fun s =>
    if (s.core.act.wait == .none && !allPerformed s s.core.act.tid) || postWaits s then .next (stall s)
    else
      awaitAccess (readS a.toNat s).toNat 64 .read false true .load 4 s (fun b s =>
        match requestBad s s.core.act.asid b with
        | some o => .next (trap 0x8B (BitVec.ofNat 64 o) s)
        | none =>
          let r := postRequest b s
          .next (writeS d.toNat (BitVec.ofNat 64 r.1) 1 r.2)))

end Sys2Proof.Machine
end

