-- ==== Sys2Proof/Machine/Copies.lean ====
section
/-! DEFINITION. Copy instructions (R253 to R260) and CSEND (R263). -/

namespace Sys2Proof.Machine

/-! ### Staging state and engines -/

/-- The number of an engine. -/
def engineNum : Engine → Nat
  | .c0 => 0
  | .c1 => 1

/-- R253: the staging state of an engine. -/
def Context.staging (e : Engine) (c : Context) : Staging :=
  match e with
  | .c0 => c.staging0
  | .c1 => c.staging1

/-- Update the staging state of an engine of the active context. -/
def modStaging (e : Engine) (f : Staging → Staging) (s : State) : State :=
  modAct (fun c =>
    match e with
    | .c0 => { c with staging0 := f c.staging0 }
    | .c1 => { c with staging1 := f c.staging1 }) s

/-- An engine of a core. -/
def Core.engine (e : Engine) (d : Core) : CopyEngine :=
  match e with
  | .c0 => d.engine0
  | .c1 => d.engine1

/-- Update an engine of a core. -/
def Core.modEngine (e : Engine) (f : CopyEngine → CopyEngine) (d : Core) : Core :=
  match e with
  | .c0 => { d with engine0 := f d.engine0 }
  | .c1 => { d with engine1 := f d.engine1 }

/-- R113: the number of a channel's watermark register and byte count. -/
def chanIdx (e : Engine) (ch : Nat) : Nat := engineNum e * 4 + ch

/-- R260: clear the bytes counted for a channel. -/
def clearCopied (e : Engine) (ch : Nat) (s : State) : State := modAct (fun c => { c with copied := c.copied.set (chanIdx e ch) 0 }) s

/-! ### CDIM, CSET, CLAB, CWM, CSYNC (R254 to R256) -/

/-- R254, R353 -/
def execCdim (e : Engine) (l : BitVec 3) (a b : BitVec 6) (s : State) : Out :=
  checked (.cdim e l a b) s (fun s =>
    let n := fld (readS a.toNat s).toNat 0 32
    let w := (readS b.toNat s).toNat
    if (if l == 0 then 1048576 else 65535) < n then .next (trap 0x81 (BitVec.ofNat 64 n) s)
    else .next (modStaging e (fun g =>
      if l == 0 then { g with n := g.n.set 0 n }
      else { g with
        n := g.n.set l.toNat n
        ss := g.ss.set l.toNat (signExt w 32)
        ds := g.ds.set l.toNat (signExt (fld w 32 32) 32) }) s))

/-- R254, R353 -/
def execCset (e : Engine) (t : BitVec 4) (a b : BitVec 6) (f : BitVec 1) (s : State) : Out :=
  checked (.cset e t a b f) s (fun s =>
    if 13 ≤ t.toNat then .next (trap 0x81 (BitVec.ofNat 64 t.toNat) s)
    else .next (modStaging e (fun g => { g with src := readS a.toNat s, dst := readS b.toNat s, efmt := t.toNat, fill := f == 1 }) s))

/-- R254 -/
def execClab (e : Engine) (l : BitVec 8) (s : State) : Out :=
  checked (.clab e l) s (fun s => .next (modStaging e (fun g => { g with label := l }) s))

/-- R255, R353: whether a watermark range is invalid. -/
def watermarkBad (base limit : Nat) : Bool := decide (limit ≤ base) || decide (0x400000 < limit) || base % 16 != 0 || limit % 16 != 0

/-- R255 -/
def execCwm (e : Engine) (h : BitVec 2) (a b : BitVec 6) (s : State) : Out :=
  checked (.cwm e h a b) s (fun s =>
    let lo := (readS a.toNat s).toNat
    let hi := (readS b.toNat s).toNat
    if watermarkBad lo hi then .next (trap 0x82 (BitVec.ofNat 64 lo) s)
    else .next (clearCopied e h.toNat (modAct (fun c => { c with
      marks := c.marks.set (chanIdx e h.toNat) ⟨lo / 16, hi / 16, lo / 16, true, []⟩ }) s)))

/-- R255: .OFF keeps the other fields. -/
def execCwmOff (e : Engine) (h : BitVec 2) (s : State) : Out :=
  checked (.cwmOff e h) s (fun s => .next (clearCopied e h.toNat (modAct (fun c => { c with
    marks := c.marks.set (chanIdx e h.toNat) { c.marks.getD (chanIdx e h.toNat) Watermark.reset with bound := false } }) s)))

/-- R256: bind a channel. -/
def setBind (e : Engine) (ch : Nat) (b : Binding) (s : State) : State :=
  clearCopied e ch (modStaging e (fun g => { g with bind := g.bind.set ch b }) s)

/-- R256, R353: bind a channel to the object at an address, which must lie in scratchpad; the value 0 clears the binding. -/
def bindTo (e : Engine) (ch : Nat) (va : W64) (b : Binding) (s : State) : Out :=
  if va == 0 then .next (setBind e ch .none s)
  else
    match xlate va.toNat 16 .write 1 s with
    | .fail c v => .next (trapAt va.toNat c v s)
    | .ok p =>
      if va.toNat % 16 != 0 || regionOf (localOf p.pa) != .slice then .next (trap 0x83 va s)
      else .next (setBind e ch b (touch va.toNat s))

/-- R256 -/
def execCsync (e : Engine) (h : BitVec 2) (a : BitVec 6) (s : State) : Out :=
  checked (.csync e h a) s (fun s => bindTo e h.toNat (readS a.toNat s) (.sync (readS a.toNat s)) s)

/-- R256 -/
def execCsyncBs (e : Engine) (h : BitVec 2) (a : BitVec 6) (s : State) : Out :=
  checked (.csyncBs e h a) s (fun s => bindTo e h.toNat (readS a.toNat s) (.slot (readS a.toNat s)) s)

/-! ### CPY (R257, R258) -/

/-- R258: put a command into a buffer, behind those with no later tick. -/
def insertCommand (k : Command) : List Command → List Command
  | [] => [k]
  | x :: r => if k.tick < x.tick then k :: x :: r else x :: insertCommand k r

/-- R258: core `n` gets a command into an engine's buffer; the engine looks at its buffer when the issue tick has come. -/
def fireCommand (n : Nat) (e : Engine) (k : Command) (s : State) : State :=
  atTime (k.tick * Config.unitsPerTick) (.copyCommandStart n e)
    (modCoreAt n (Core.modEngine e (fun g => { g with buffer := insertCommand k g.buffer })) s)

/-- R258: a command whose tick has passed at its commit starts within 2 ticks. -/
def fireLate (n : Nat) (e : Engine) (k : Command) (s : State) : State :=
  within 2 (.copyCommandStart n e) (modCoreAt n (Core.modEngine e (fun g => { g with buffer := insertCommand k g.buffer })) s)

/-- R257: the command a CPY makes. -/
def mkCommand (e : Engine) (ch : Nat) (acq rel : Bool) (scope tick : Nat) (s : State) : Command :=
  let c := s.core.act
  let g := c.staging e
  ⟨s.nextId, c.tid, c.priv, g, ch, g.bind.getD ch .none, acq, rel, scopeOf scope, s.core.slot.xb.toNat, tick, c.order⟩

/-- R257, R258 -/
def execCpy (e : Engine) (r q : BitVec 1) (h : BitVec 2) (a : BitVec 6) (z : BitVec 3) (s : State) : Out :=
  checked (.cpy e r q h a z) s (fun s =>
    if Config.copyBufferSize ≤ (s.core.engine e).buffer.length then .next (stall s)
    else
      let k := mkCommand e h.toNat (q == 1) (r == 1) z.toNat (readS a.toNat s).toNat s
      .next ((if k.tick < tickNow s then fireLate else fireCommand) s.lcn e k { s with nextId := s.nextId + 1 }))

/-! ### CCAN and CQRY (R259, R260) -/

/-- R259: withdraw the commands of the active context that a test names. -/
def withdraw (e : Engine) (p : Command → Bool) (s : State) : State :=
  let t := s.core.act.tid
  modCore (Core.modEngine e (fun g => { g with buffer := g.buffer.filter (fun k => !(k.taskid == t && p k)) })) s

/-- R259 -/
def execCcan (e : Engine) (h : BitVec 2) (s : State) : Out :=
  checked (.ccan e h) s (fun s => .next (withdraw e (fun k => k.ch == h.toNat) s))

/-- R259: every channel. -/
def execCcanAll (e : Engine) (h : BitVec 2) (s : State) : Out :=
  checked (.ccanAll e h) s (fun s => .next (withdraw e (fun _ => true) s))

/-- R260: the items of CQRY. -/
def queryItem (e : Engine) (ch i : Nat) (s : State) : W64 :=
  let g := s.core.engine e
  let mine := g.buffer.filter (fun k => k.ch == ch && k.taskid == s.core.act.tid)
  match i with
  | 0 => BitVec.ofNat 64 (mine.filter (fun k => decide (tickNow s < k.tick))).length
  | 1 => BitVec.ofNat 64 (b2n (g.running.any (fun r => r.cmd.ch == ch && r.cmd.taskid == s.core.act.tid)))
  | 2 => BitVec.ofNat 64 (s.core.act.copied.getD (chanIdx e ch) 0)
  | 3 => match mine with
    | [] => BitVec.allOnes 64
    | k :: _ => BitVec.ofNat 64 k.tick
  | _ => BitVec.ofNat 64 (Config.copyBufferSize - g.buffer.length)

/-- R260 -/
def execCqry (e : Engine) (d : BitVec 6) (h : BitVec 2) (i : BitVec 3) (s : State) : Out :=
  checked (.cqry e d h i) s (fun s => .next (writeS d.toNat (queryItem e h.toNat i.toNat s) 2 s))

/-! ### CSEND (R263) -/

/-- R263: whether a span of device physical addresses lies in the slice of core `n`. -/
def inSlice (s : State) (n pa len : Nat) : Bool :=
  let a := remapLocal s (localOf pa)
  pkgOf pa == pkgId s && regionOf a == .slice && sliceCid a == cidOf n && decide (a % 0x400000 + max len 1 ≤ 0x400000)

/-- R353: whether a CSEND of `len` bytes on a handle takes 0x88. -/
def sendBad (s : State) (h : Handle) (len pa : Nat) : Bool :=
  len % 16 != 0 || decide (2 ^ 32 ≤ len) || h.st == .free || h.st == .refused || h.st == .lost || !inSlice s h.far pa len

/-- R263 -/
def execCsend (e : Engine) (r : BitVec 1) (h : BitVec 2) (a b : BitVec 6) (z : BitVec 3) (s : State) : Out :=
  checked (.csend e r h a b z) s (fun s =>
    let n := fld (readS a.toNat s).toNat 0 3
    let len := (readS b.toNat s).toNat
    let v := s.core.act.handle n
    let g := s.core.act.staging e
    match xlate g.dst.toNat len .write 1 s with
    | .fail c w => .next (trapAt g.dst.toNat c w s)
    | .ok p =>
      if sendBad s v len p.pa then .next (trap 0x88 (BitVec.ofNat 64 n) s)
      else if 4 ≤ v.streams.length then .next (stall s)
      else
        let m : Stream := ⟨g.src.toNat, p.pa, len, g.bind.getD h.toNat .none, e, h.toNat, r == 1, scopeOf z.toNat,
          s.core.slot.xb.toNat, 0, s.core.act.order, s.nextId⟩
        let s := { s with nextId := s.nextId + 1 }
        let s := setHandle n { v with streams := v.streams ++ [m] } (touch g.dst.toNat s)
        .next (if v.st == .pending then s else soon (.streamStart s.core.act.tid n) s))

end Sys2Proof.Machine
end

