-- ==== Sys2Proof/Machine/Kiosk.lean ====
section
/-! DEFINITION. Kiosks: bands, acceptance, selection, parking, aging and balancing (R37 to R52, R348), and what is common to
tasks that end (R358, R363). -/

namespace Sys2Proof.Machine

/-! ### Entries of a band (R46, R49) -/

/-- R39, R46, R360: whether entry `a` stands before entry `b` of its band: an entry put at the head first, then by acceptance
tick, and of one kiosk's entries of a tick by acceptance sequence. DESIGN CHOICE (assumption 52): of entries that different kiosks accepted
in one tick the one put in later stands behind. -/
def Entry.before (a b : Entry) : Bool :=
  a.head || (!b.head && (decide (a.task.accepted < b.task.accepted) ||
    (a.task.accepted == b.task.accepted && a.task.taskid / 2 ^ 23 == b.task.taskid / 2 ^ 23 &&
      decide ((b.task.taskid % 2 ^ 23 + 2 ^ 23 - a.task.taskid % 2 ^ 23) % 2 ^ 23 < 2 ^ 22))))

/-- R46: put an entry into a band. -/
def insertEntry (e : Entry) : List Entry → List Entry
  | [] => [e]
  | x :: r => if e.before x then e :: x :: r else x :: insertEntry e r

/-- A band of a kiosk. -/
def Kiosk.band (b : Nat) (k : Kiosk) : List Entry := k.bands.getD b []

/-- Update a band. -/
def Kiosk.modBand (b : Nat) (f : List Entry → List Entry) (k : Kiosk) : Kiosk := { k with bands := k.bands.set b (f (k.band b)) }

/-- R22, R359: places of a band in use; an overrun entry keeps its place. -/
def Kiosk.used (b : Nat) (k : Kiosk) : Nat := (k.band b).length + (k.overrun.filter (fun e => e.task.desc.band == b)).length

/-- The tick at which an entry has waited more than 2^20 ticks in its band (R49). -/
def Entry.agesAt (e : Entry) : Nat := e.since + 2 ^ 20 + 1 - e.waited

/-- Take the entry of a task that waits out of a kiosk. -/
def Kiosk.without (t : Nat) (k : Kiosk) : Kiosk :=
  { k with bands := k.bands.map (fun b => b.filter (fun e => e.task.taskid != t))
           arriving := k.arriving.filter (fun e => e.task.taskid != t) }

/-- The waiting entry of a task in a kiosk. -/
def Kiosk.waitingEntry (t : Nat) (k : Kiosk) : Option Entry := (k.bands.flatten ++ k.arriving).find? (fun e => e.task.taskid == t)

/-- The overrun entry of a task in a kiosk. -/
def Kiosk.overrunEntry (t : Nat) (k : Kiosk) : Option Entry := k.overrun.find? (fun e => e.task.taskid == t)

/-- R38, R359: the copy that a kiosk keeps of a task until it ends. -/
def taskCopy (s : State) (t : Nat) : Option Task := (s.kiosks.flatMap (fun k => k.2.copies)).find? (fun c => c.taskid == t)

/-- The kiosk no longer keeps the copy of a task. -/
def dropCopy (t : Nat) (s : State) : State :=
  { s with kiosks := s.kiosks.map (fun k => (k.1, { k.2 with copies := k.2.copies.filter (fun c => c.taskid != t) })) }

/-- R52, R304: kiosk `q` holds a task and its copy from now on. -/
def rehome (q t : Nat) (s : State) : State :=
  let old := taskCopy s t
  modKiosk q (fun k => { k with copies := k.copies ++ (old.map (fun c => { c with quad := q })).toList }) (dropCopy t s)

/-- R30: whether a quad has a core that a kiosk may dispatch to. -/
def quadServes (s : State) (q : Nat) : Bool := [0, 1, 2, 3].any (fun i => availBit s (q * 4 + i))

/-- R30: the quad that takes the entries of quad `q` when a core of it is retired: `q` itself while it has another available core,
else the first quad of its die that has one, else of the module. -/
def refuge (s : State) (q : Nat) : Option Nat :=
  if quadServes s q then some q
  else (((List.range 36).map (fun i => dieOfQuad q * 36 + i)) ++ List.range Config.numQuads).find? (quadServes s)

/-- R18: the CID of a quad's first core, which AFFV names it by. -/
def cidOfQuad (q : Nat) : Nat := cidOf (q * 4)

/-- R30: an entry pinned to a core or quad that has none left, as one of quad `r`. -/
def Entry.pinTo (r : Nat) (e : Entry) : Entry :=
  let d := e.task.desc
  if d.affk == 0 then e else { e with task := { e.task with desc := { d with affk := 1, affv := cidOfQuad r } } }

/-- R30, R46: whether a core of quad `q` that is not retired is one that an entry may run on. -/
def Entry.dispatchable (s : State) (q : Nat) (e : Entry) : Bool :=
  [0, 1, 2, 3].any (fun i => availBit s (q * 4 + i) &&
    (e.saved.isSome || e.task.desc.affk != 2 || lcnOf e.task.desc.affv == q * 4 + i))

/-- R30: the kiosk that holds an entry, and the entry there: one that can run on no core of quad `q` any more migrates. -/
def Entry.settle (s : State) (q : Nat) (e : Entry) : Nat × Entry :=
  if e.dispatchable s q then (q, e)
  else
    match refuge s q with
    | none => (q, e)
    | some r => (r, { e.pinTo r with task := { (e.pinTo r).task with quad := r } })

/-- R22, R49: put an entry into its band of kiosk `q`; it ages from there, and the kiosk looks for a core for it (R47). DESIGN CHOICE
(assumption 34): one that finds its band full waits beside it for a place. -/
def placeEntry (q : Nat) (e : Entry) (s : State) : State :=
  if Config.bandSize ≤ (kioskAt s q).used e.band then
    inTicks 1 (.balanceArrival q) (modKiosk q (fun k => { k with arriving := k.arriving ++ [e] }) s)
  else
    let s := modKiosk q (Kiosk.modBand e.band (insertEntry e)) s
    let s := if e.band < 3 then atTime (e.agesAt * Config.unitsPerTick) (.entryAging q e.task.taskid) s else s
    selectSoon q s

/-- R30, R46: an entry comes to kiosk `q`, or to the one that it migrates to. -/
def enqueue (q : Nat) (e : Entry) (s : State) : State :=
  let x := e.settle s q
  placeEntry x.1 x.2 (if x.1 == q then s else rehome x.1 e.task.taskid s)

/-! ### Tasks that end (R358, R363) -/

/-- R61, R101: how a task that is in no active bank translates: its ASID's range table, at task privilege. -/
def taskView (s : State) (t : Task) : Context :=
  { Context.reset with
    task := some t
    pc := t.desc.pc
    stw := 0
    ranges := (readRanges s t.desc.asid).1
    tables := ⟨s.mem, s.unitKey, tickNow s⟩ }

/-- R358: every handle of a context is released and its queued streams are dropped. -/
def releaseHandles (c : Context) (s : State) : State :=
  (List.range 8).foldl (fun s h => releaseOwner (.handle c.tid h) s) s

/-- R56, R362: whether the shadow task of a core pre-empts its active task: BAND 3 against 0 to 2, with a save slot to be had. -/
def preempts (s : State) (n : Nat) : Bool :=
  let d := coreAt s n
  d.shadow == .loaded && d.swapReq.isNone && d.act.ending.isNone &&
    d.shd.task.any (fun t => t.desc.band == 3) && d.act.task.any (fun t => decide (t.desc.band < 3) && hasSlot s t)

/-- R56: request the pre-emption of core `n` where it is due. -/
def preempt (n : Nat) (s : State) : State :=
  if preempts s n then modCoreAt n (fun d => { d with swapReq := some .preempted }) s else s

/-- R362: the kiosk of quad `q` tests its pre-emptions again. -/
def retestPreempts (q : Nat) (s : State) : State := (List.range 4).foldl (fun s i => preempt (q * 4 + i) s) s

/-- R360, R362: the save slot of a task is free again. -/
def freeSaveSlot (t : Task) (s : State) : State :=
  match t.slot with
  | none => s
  | some (q, i) => retestPreempts q (modKiosk q (fun k => { k with slotsUsed := k.slotsUsed.filter (fun x => x != i) }) s)

/-- R47, R303, R358, R374: the CID remap entries of tasks are freed in a new version of the region table; the kiosks of the cores that
they were passing over select again. -/
def dropRemaps (ts : List Nat) (s : State) : State :=
  let mine := s.remaps.filter (fun r => ts.contains r.taskid)
  if mine.isEmpty then s
  else
    mine.foldl (fun s r => selectSoon (quadOf r.old) s)
      (newRegion mine { s with remaps := s.remaps.filter (fun r => !ts.contains r.taskid) })

/-- R303, R374: the CID remap entries of a task are freed, once no older version of the region table is live. -/
def freeRemaps (t : Nat) (s : State) : State :=
  if regionDrains s && s.remaps.any (fun r => r.taskid == t) then
    { s with tables := { s.tables with toFree := s.tables.toFree ++ [t] } }
  else dropRemaps [t] s

/-- R303, R358: what a task holds in the package is given back: its save slot and its CID remap entry. -/
def releaseTask (t : Task) (s : State) : State := freeSaveSlot t (freeRemaps t.taskid s)

/-- R358, R363: what a task in no active bank holds is given back, and its join update follows. `n` is a core of its quad. -/
def giveBack (n : Nat) (c : Context) (code : BitVec 8) (s : State) : State :=
  match c.task with
  | none => s
  | some t => soon (.failedJoinUpdate n t.taskid code) (releaseTask t (releaseHandles c s))

/-- R358, R363: a task in the shadow bank of core `n` ends by a cause, with a record that concerns an address. -/
def endHeld (n : Nat) (c : Context) (code : BitVec 8) (val : W64) (addr : Nat) (s : State) : State :=
  if c.task.isNone then s
  else giveBack n c code (record (contextRec s n c code.toNat c.slotres false true val.toNat addr) s)

/-! ### Acceptance (R37 to R41, R45, R348) -/

/-- R39: the order in which sources of one tick are accepted. -/
def sourceRank : TaskSource → Nat
  | .core n _ => n
  | .host q => 1152 + q

/-- R39: the time of an acceptance by kiosk `q` that falls in the present tick and goes before one of rank `r`. -/
def earlierAccept (s : State) (q r : Nat) : Option Nat :=
  (s.agenda.find? (fun e =>
    match e.2 with
    | .taskAcceptance q' src _ => q' == q && decide (sourceRank src < r) && e.1 / Config.unitsPerTick == tickNow s
    | _ => false)).map Prod.fst

/-- R348: the record of a refused host-window descriptor written to the KPORT of quad `p`. -/
def refusedRec (s : State) (p : Nat) (bs : List Byte) (off : Nat) : Rec :=
  { area := 5, cause := 0x8C, asid := some (parseDescriptor bs).asid, ifc := ifcOfQuad s p, addr := 0x1000000 + p * 0x1000
    tval := off }

/-- R38: the task that a descriptor makes at kiosk `q`. -/
def acceptedTask (s : State) (q : Nat) (bs : List Byte) : Task :=
  let d := parseDescriptor bs
  let b := if d.budget == 0 then fld (regRaw s (0x1000040 + q * 0x1000)) 16 48 else d.budget
  ⟨q * 2 ^ 23 + (kioskAt s q).seq, { d with budget := b }, tickNow s, q, 0, PreloadList.empty, none, b, 0, false⟩

/-- R48: park the shadow task of core `n`. -/
def park (n : Nat) (s : State) : State :=
  let d := coreAt s n
  match d.preloads.find? (fun p => d.shd.isTask p.entry.task.taskid) with
  | none => s
  | some p =>
    let s := setCore s n { d with
      shadow := .free
      shd := Context.reset
      preloads := d.preloads.filter (fun x => x.entry.task.taskid != p.entry.task.taskid)
      swapReq := if d.swapReq == some .preempted || d.swapReq == some .idle then none else d.swapReq }
    let saved := p.entry.saved.map (fun x => (d.shd, x.2))
    enqueue (quadOf n) { p.entry with since := tickNow s, saved := saved } s

/-- R55: whether a swap is in its cycles 1 to 24. -/
def Leaving.swapping : Leaving → Bool
  | .swap _ => true
  | _ => false

/-- R48: whether the shadow task of core `n` gives way to a newly accepted entry of kiosk `q`. -/
def gives (s : State) (q : Nat) (e : Entry) (n : Nat) : Bool :=
  let d := coreAt s n
  d.shadow == .loaded && !d.leaving.swapping && e.admits s q n &&
    d.preloads.any (fun p => d.shd.isTask p.entry.task.taskid && decide (p.entry.band < e.band))

/-- R48: the kiosk parks what a newly accepted entry outranks. -/
def parkFor (q : Nat) (e : Entry) (s : State) : State :=
  (List.range 4).foldl (fun s i => if gives s q e (q * 4 + i) then park (q * 4 + i) s else s) s

/-- R45: KLASTID of the kiosk whose KPORT was written. -/
def noteLast (src : TaskSource) (t : Nat) (s : State) : State :=
  match src with
  | .host p => setReg (0x1000058 + p * 0x1000) t s
  | .core _ _ => s

/-- R38, R45, R48: kiosk `q` accepts a descriptor. -/
def acceptTask (q : Nat) (src : TaskSource) (bs : List Byte) (s : State) : State :=
  let t := acceptedTask s q bs
  let e : Entry := ⟨t, t.desc.band, tickNow s, 0, none, false⟩
  let s := modKiosk q (fun k => { k with seq := (k.seq + 1) % 2 ^ 23, copies := k.copies ++ [t] }) (noteLast src t.taskid s)
  parkFor q e (enqueue q e s)

/-- R348: the offset of the first bad byte of a host-window descriptor; TSPAWN has checked its own. -/
def refusedAt (s : State) (src : TaskSource) (bs : List Byte) : Option (Nat × Nat) :=
  match src with
  | .host p => (descriptorBad s bs).map (fun o => (p, o))
  | .core _ _ => none

/-- R38, R39, R348: a delivered descriptor is accepted in its turn, or refused. A band with no free place takes it in a later tick
(the manual states no effect of a full band). -/
def deliver (q : Nat) (src : TaskSource) (bs : List Byte) (s : State) : State :=
  match earlierAccept s q (sourceRank src) with
  | some t => atTime t (.taskAcceptance q src bs) s
  | none =>
    match refusedAt s src bs with
    | some (p, o) => record (refusedRec s p bs o) s
    | none =>
      if Config.bandSize ≤ (kioskAt s q).used (parseDescriptor bs).band then inTicks 1 (.taskAcceptance q src bs) s
      else acceptTask q src bs s

/-- R38 -/
def execTaskAcceptance (s : State) : Out :=
  match s.happening with
  | .taskAcceptance q src bs => onQuad q s (deliver q src bs)
  | _ => .next s

/-- R37, R39: a host-window descriptor goes to the kiosk that it names. DESIGN CHOICE (assumption 50): its acceptance takes no longer
than that of a TSPAWN over the same distance. -/
def forwardHost (q : Nat) (bs : List Byte) (s : State) : State :=
  let r := homeKiosk q (parseDescriptor bs)
  let r := if r < Config.numQuads then r else q
  within (acceptBound q r) (.taskAcceptance r (.host q) bs) s

/-- R40: entries of a die's ingress buffer that have yet to be applied. -/
def unapplied (s : State) (die : Nat) : Nat := (ingressAt s die).entries.length

/-- R376: the ticks that a host request is held. -/
def hostAge (s : State) (die : Nat) : Nat := fld (regRaw s (0x2000200 + die * 0x1000)) 0 32

/-- R40, R41, R376: a descriptor written to KPORT waits behind the host writes that its die's ingress buffer holds. -/
def kportOp (q : Nat) (bs : List Byte) (s : State) : State :=
  let die := dieOfQuad q
  if unapplied s die == 0 then forwardHost q bs s
  else
    let w : HostWaiting := ⟨0, 0, 0, some q, bs, unapplied s die, tickNow s⟩
    inTicks (hostAge s die) (.hostRequestAgeExpiry die) (modIngress die (fun g => { g with waiting := g.waiting ++ [w] }) s)

/-! ### Selection (R46, R47, R50, R56) -/

/-- R47: the oldest admitting entry of the highest band that has one. -/
def pickEntry (s : State) (q n : Nat) : Option Entry :=
  let k := kioskAt s q
  (k.band 3 ++ k.band 2 ++ k.band 1 ++ k.band 0).find? (fun e => e.admits s q n)

/-- R311: whether the kiosks pause dispatch. -/
def dispatchPaused (s : State) : Bool := s.handover.frozen && s.handover.role == 1

/-- R47, R48: an entry leaves its band for the shadow bank of core `n`, with the waiting time it has, and its preload begins. -/
def giveShadow (q n : Nat) (e : Entry) (s : State) : State :=
  let e := { e with task := { e.task with logical := if s.remaps.any (fun r => r.taskid == e.task.taskid) then e.task.logical else n } }
  let p : Preload := ⟨{ e with waited := e.waited + (tickNow s - e.since), head := false }, 1, 0, 0, false⟩
  let s := modKiosk q (fun k => { (k.without e.task.taskid) with rr := n % 4 }) s
  let s := modCoreAt n (fun d => { d with
    shadow := .loaded
    shd := { (e.saved.map Prod.fst).getD Context.reset with task := some e.task }
    preloads := d.preloads ++ [p] }) s
  preempt n (within 32 (.preload n) s)

/-- R302: whether a migration is under way: from its step 1 to its step 5. -/
def Leaving.moving : Leaving → Bool
  | .settling _ | .copying => true
  | _ => false

/-- R302: whether a migration under way has core `n` as its target. -/
def reserved (s : State) (n : Nat) : Bool := (allCores s).any (fun e => e.2.leaving.moving && e.2.swapReq == some (.migrated n))

/-- R47, R56: serve core `n` if its shadow bank is free, no swap is under way on it and an entry admits it. -/
def serve (q n : Nat) (s : State) : State :=
  if (coreAt s n).shadow == .free && !(coreAt s n).leaving.swapping && available s n && !reserved s n then
    match pickEntry s q n with
    | some e => giveShadow q n e s
    | none => s
  else s

/-- R47: round robin from the core after the one served last. -/
def selectAll (q : Nat) (s : State) : State :=
  let r := (kioskAt s q).rr
  [1, 2, 3, 4].foldl (fun s i => serve q (q * 4 + (r + i) % 4) s) s

/-- R47 -/
def execKioskSelect (s : State) : Out :=
  match s.happening with
  | .kioskSelect q => onQuad q s (fun s => if dispatchPaused s then s else selectAll q s)
  | _ => .next s

/-! ### Aging and balancing (R49, R52) -/

/-- R49: a waiting entry whose time has come moves to the next band. -/
def ageEntry (q : Nat) (e : Entry) (s : State) : State :=
  if e.band < 3 && decide (e.agesAt ≤ tickNow s) then
    enqueue q { e with band := e.band + 1, since := tickNow s, waited := 0 } (modKiosk q (Kiosk.without e.task.taskid) s)
  else s

/-- R49 -/
def execEntryAging (s : State) : Out :=
  match s.happening with
  | .entryAging q t =>
    onQuad q s (fun s =>
      match (kioskAt s q).waitingEntry t with
      | some e => ageEntry q e s
      | none => s)
  | _ => .next s

/-- R52: KCFG.BALEN. -/
def balances (s : State) (q : Nat) : Bool := bit (regRaw s (0x1000040 + q * 0x1000)) 8

/-- R52: KCFG.BALTHR. -/
def balanceThreshold (s : State) (q : Nat) : Nat := fld (regRaw s (0x1000040 + q * 0x1000)) 0 8

/-- R49, R66: every aging that is due in the present tick. -/
def ageAll (s : State) : State :=
  (s.kiosks.flatMap (fun k => k.2.bands.flatten.map (fun e => (k.1, e)))).foldl (fun s p => ageEntry p.1 p.2 s) s

/-- R52: every kiosk that takes part samples its depths, and the places that are free (R22, R359). -/
def sampleDepths (s : State) : State :=
  { s with kiosks := s.kiosks.map (fun k =>
      (k.1, { k.2 with
        samples := if balances s k.1 then k.2.bands.map List.length else []
        spaces := [0, 1, 2, 3].map (fun b => Config.bandSize - k.2.used b) })) }

/-- R52 -/
def execBalanceSample (s : State) : Out :=
  match s.happening with
  | .balanceSample => .next (inTicks 4096 .balanceSample (atTime (tickEnd s + 256 * Config.unitsPerTick) .balanceDecide (sampleDepths (ageAll s))))
  | _ => .next s

/-- R52: the mesh neighbours of a quad on its die: north, east, south, west. DESIGN CHOICE (assumption 51): north is the lower row. -/
def neighbours (q : Nat) : List Nat :=
  let r := q % 36 / 6
  let c := q % 6
  (if 0 < r then [q - 6] else []) ++ (if c < 5 then [q + 1] else []) ++ (if r < 5 then [q + 6] else []) ++
    (if 0 < c then [q - 1] else [])

/-- R52: the sampled depth of a band of a kiosk that takes part. DESIGN CHOICE (assumption 51): BALEN is judged at the decision. -/
def sampled (s : State) (q b : Nat) : Option Nat := if balances s q then (kioskAt s q).samples[b]? else none

/-- R52: the first of the shallowest neighbours, with its depth. -/
def shallowest (s : State) (q b : Nat) : Option (Nat × Nat) :=
  (neighbours q).foldl (fun m x =>
    match sampled s x b with
    | none => m
    | some v =>
      match m with
      | none => some (x, v)
      | some y => if v < y.2 then some (x, v) else m) none

/-- R46, R52: whether balancing may move an entry. -/
def Entry.movable (e : Entry) : Bool := e.task.desc.affk == 0 && e.saved.isNone

/-- R52: the number of entries that kiosk `q` sends of band `b`, and to which neighbour. What the receiver itself sends lessens
the space that it offers; every hop goes to a shallower kiosk, so the fuel, the quads of a die, is enough. -/
def sends (s : State) : Nat → Nat → Nat → Nat × Nat
  | 0, q, _ => (0, q)
  | f + 1, q, b =>
    match sampled s q b, shallowest s q b with
    | some v, some y =>
      if v - y.2 ≤ balanceThreshold s q then (0, q)
      else
        let m := (((kioskAt s q).band b).filter Entry.movable).length
        (min ((v - y.2) / 2) (min m ((kioskAt s y.1).spaces.getD b 0 - (sends s f y.1 b).1)), y.1)
    | _, _ => (0, q)

/-- R52: the `n` youngest movable entries of a band. -/
def youngest (n : Nat) (l : List Entry) : List Entry := ((l.filter Entry.movable).reverse).take n

/-- R52: entries leave a kiosk for a neighbour. -/
def sendEntries (q r b n : Nat) (s : State) : State :=
  let es := youngest n ((kioskAt s q).band b)
  if es.isEmpty then s
  else
    let s := es.foldl (fun s e => modKiosk q (Kiosk.without e.task.taskid) s) s
    within 64 (.balanceArrival r) (modKiosk r (fun k => { k with arriving := k.arriving ++ es }) s)

/-- R52: all moves are decided on the samples and then made. -/
def decideMoves (s : State) : State :=
  let moves := s.kiosks.flatMap (fun k => [0, 1, 2, 3].map (fun b => (k.1, b, sends s 36 k.1 b)))
  moves.foldl (fun s m => sendEntries m.1 m.2.2.2 m.2.1 m.2.2.1 s) s

/-- R52 -/
def execBalanceDecide (s : State) : Out :=
  match s.happening with
  | .balanceDecide => .next (decideMoves s)
  | _ => .next s

/-- R52: a moved entry belongs to the receiver from now on. -/
def arriveEntry (q : Nat) (e : Entry) (s : State) : State :=
  enqueue q { e with task := { e.task with quad := q } } (rehome q e.task.taskid s)

/-- R52 -/
def execBalanceArrival (s : State) : Out :=
  match s.happening with
  | .balanceArrival q =>
    onQuad q s (fun s =>
      let es := (kioskAt s q).arriving
      es.foldl (fun s e => arriveEntry q e s) (modKiosk q (fun k => { k with arriving := [] }) s))
  | _ => .next s

end Sys2Proof.Machine
end

