-- ==== Sys2Proof/Machine/Scalar.lean ====
section
/-! DEFINITION. Constants, moves, integer, logic and bit-field instructions, compares and predicates, scalar floating point
(R153 to R162). -/

namespace Sys2Proof.Machine

/-- R124: NOP executes nothing; its operand field is ignored. -/
def execNop (x : BitVec 21) (s : State) : Out := checked (.nop x) s (fun s => .next s)

/-- R150: a scalar result of latency `L`. -/
def scalarOp (i : Instr) (d : BitVec 6) (L : Nat) (v : State → W64) (s : State) : Out :=
  checked i s (fun s => .next (writeS d.toNat (v s) L s))

/-- R154: the register form: two sources. -/
def regForm (i : Instr) (d a b : BitVec 6) (L : Nat) (f : W64 → W64 → W64) (s : State) : Out :=
  scalarOp i d L (fun s => f (readS a.toNat s) (readS b.toNat s)) s

/-- R154: one source. -/
def oneForm (i : Instr) (d a : BitVec 6) (L : Nat) (f : W64 → W64) (s : State) : Out :=
  scalarOp i d L (fun s => f (readS a.toNat s)) s

/-- R154: the immediate form with a signed immediate. -/
def immFormS (i : Instr) (d a : BitVec 6) (m : BitVec 9) (f : W64 → W64 → W64) (s : State) : Out :=
  scalarOp i d 1 (fun s => f (readS a.toNat s) (BitVec.ofInt 64 (immS 9 m.toNat s.core.slot))) s

/-- R154: the immediate form with an unsigned immediate. -/
def immFormZ (i : Instr) (d a : BitVec 6) (m : BitVec 9) (f : W64 → W64 → W64) (s : State) : Out :=
  scalarOp i d 1 (fun s => f (readS a.toNat s) (BitVec.ofNat 64 (immZ 9 m.toNat s.core.slot))) s

/-! ### Constants and moves (R153) -/

/-- R153 -/
def execLi (d : BitVec 6) (i : BitVec 15) (s : State) : Out :=
  scalarOp (.li d i) d 1 (fun s => BitVec.ofInt 64 (immS 15 i.toNat s.core.slot)) s

/-- R153 -/
def execLih (d : BitVec 6) (i : BitVec 15) (s : State) : Out :=
  scalarOp (.lih d i) d 1 (fun s =>
    (readS d.toNat s <<< (if s.core.slot.hdr then 19 else 15)) ||| BitVec.ofNat 64 (immZ 15 i.toNat s.core.slot)) s

/-- R153 -/
def execMov (d a : BitVec 6) (s : State) : Out := oneForm (.mov d a) d a 1 id s

/-! ### Integer, logic and bit counts (R154, R155) -/

/-- R154 -/
def execAdd (d a b : BitVec 6) (s : State) : Out := regForm (.add d a b) d a b 1 (fun x y => x + y) s
/-- R154 -/
def execAddi (d a : BitVec 6) (i : BitVec 9) (s : State) : Out := immFormS (.addi d a i) d a i (fun x y => x + y) s
/-- R154 -/
def execSub (d a b : BitVec 6) (s : State) : Out := regForm (.sub d a b) d a b 1 (fun x y => x - y) s
/-- R154 -/
def execMul (d a b : BitVec 6) (s : State) : Out := regForm (.mul d a b) d a b 3 (fun x y => x * y) s
/-- R154 -/
def execMulhs (d a b : BitVec 6) (s : State) : Out :=
  regForm (.mulhs d a b) d a b 4 (fun x y => BitVec.ofInt 64 (x.toInt * y.toInt / 2 ^ 64)) s
/-- R154 -/
def execMulhu (d a b : BitVec 6) (s : State) : Out :=
  regForm (.mulhu d a b) d a b 4 (fun x y => BitVec.ofNat 64 (x.toNat * y.toNat / 2 ^ 64)) s
/-- R154 -/
def execAnd (d a b : BitVec 6) (s : State) : Out := regForm (.and d a b) d a b 1 (fun x y => x &&& y) s
/-- R154 -/
def execAndi (d a : BitVec 6) (i : BitVec 9) (s : State) : Out := immFormS (.andi d a i) d a i (fun x y => x &&& y) s
/-- R154 -/
def execOr (d a b : BitVec 6) (s : State) : Out := regForm (.or d a b) d a b 1 (fun x y => x ||| y) s
/-- R154 -/
def execOri (d a : BitVec 6) (i : BitVec 9) (s : State) : Out := immFormZ (.ori d a i) d a i (fun x y => x ||| y) s
/-- R154 -/
def execXor (d a b : BitVec 6) (s : State) : Out := regForm (.xor d a b) d a b 1 (fun x y => x ^^^ y) s
/-- R154 -/
def execXori (d a : BitVec 6) (i : BitVec 9) (s : State) : Out := immFormZ (.xori d a i) d a i (fun x y => x ^^^ y) s
/-- R154 -/
def execAndn (d a b : BitVec 6) (s : State) : Out := regForm (.andn d a b) d a b 1 (fun x y => x &&& ~~~y) s
/-- R154 -/
def execShl (d a b : BitVec 6) (s : State) : Out := regForm (.shl d a b) d a b 1 (fun x y => x <<< (y.toNat % 64)) s
/-- R154 -/
def execShli (d a : BitVec 6) (i : BitVec 9) (s : State) : Out :=
  immFormZ (.shli d a i) d a i (fun x y => x <<< (y.toNat % 64)) s
/-- R154 -/
def execShr (d a b : BitVec 6) (s : State) : Out := regForm (.shr d a b) d a b 1 (fun x y => x >>> (y.toNat % 64)) s
/-- R154 -/
def execShri (d a : BitVec 6) (i : BitVec 9) (s : State) : Out :=
  immFormZ (.shri d a i) d a i (fun x y => x >>> (y.toNat % 64)) s
/-- R154 -/
def execSra (d a b : BitVec 6) (s : State) : Out := regForm (.sra d a b) d a b 1 (fun x y => x.sshiftRight (y.toNat % 64)) s
/-- R154 -/
def execSrai (d a : BitVec 6) (i : BitVec 9) (s : State) : Out :=
  immFormZ (.srai d a i) d a i (fun x y => x.sshiftRight (y.toNat % 64)) s
/-- R154 -/
def execRor (d a b : BitVec 6) (s : State) : Out := regForm (.ror d a b) d a b 1 (fun x y => x.rotateRight (y.toNat % 64)) s
/-- R154 -/
def execMins (d a b : BitVec 6) (s : State) : Out :=
  regForm (.mins d a b) d a b 1 (fun x y => if x.toInt ≤ y.toInt then x else y) s
/-- R154 -/
def execMaxs (d a b : BitVec 6) (s : State) : Out :=
  regForm (.maxs d a b) d a b 1 (fun x y => if x.toInt ≤ y.toInt then y else x) s
/-- R154 -/
def execMinu (d a b : BitVec 6) (s : State) : Out :=
  regForm (.minu d a b) d a b 1 (fun x y => if x.toNat ≤ y.toNat then x else y) s
/-- R154 -/
def execMaxu (d a b : BitVec 6) (s : State) : Out :=
  regForm (.maxu d a b) d a b 1 (fun x y => if x.toNat ≤ y.toNat then y else x) s

/-- Leading zero bits among bits n − 1 to 0. -/
def leadingZeros (x : Nat) : Nat → Nat
  | 0 => 0
  | n + 1 => if bit x n then 0 else 1 + leadingZeros x n

/-- Trailing zero bits from bit i on, among n. -/
def trailingZeros (x i : Nat) : Nat → Nat
  | 0 => 0
  | n + 1 => if bit x i then 0 else 1 + trailingZeros x (i + 1) n

/-- The number of one bits among bits n − 1 to 0. -/
def popCount (x : Nat) : Nat → Nat
  | 0 => 0
  | n + 1 => b2n (bit x n) + popCount x n

/-- R154 -/
def execClz (d a : BitVec 6) (s : State) : Out := oneForm (.clz d a) d a 1 (fun x => BitVec.ofNat 64 (leadingZeros x.toNat 64)) s
/-- R154 -/
def execCtz (d a : BitVec 6) (s : State) : Out := oneForm (.ctz d a) d a 1 (fun x => BitVec.ofNat 64 (trailingZeros x.toNat 0 64)) s
/-- R154 -/
def execPopc (d a : BitVec 6) (s : State) : Out := oneForm (.popc d a) d a 1 (fun x => BitVec.ofNat 64 (popCount x.toNat 64)) s

/-- R155 -/
def execDivs (d a b : BitVec 6) (s : State) : Out :=
  regForm (.divs d a b) d a b 34 (fun x y => if y == 0 then BitVec.allOnes 64 else BitVec.ofInt 64 (x.toInt.tdiv y.toInt)) s
/-- R155 -/
def execDivu (d a b : BitVec 6) (s : State) : Out :=
  regForm (.divu d a b) d a b 34 (fun x y => if y == 0 then BitVec.allOnes 64 else BitVec.ofNat 64 (x.toNat / y.toNat)) s
/-- R155 -/
def execRems (d a b : BitVec 6) (s : State) : Out :=
  regForm (.rems d a b) d a b 34 (fun x y => if y == 0 then x else BitVec.ofInt 64 (x.toInt.tmod y.toInt)) s
/-- R155 -/
def execRemu (d a b : BitVec 6) (s : State) : Out :=
  regForm (.remu d a b) d a b 34 (fun x y => if y == 0 then x else BitVec.ofNat 64 (x.toNat % y.toNat)) s

/-- R156 -/
def execSel (d a b : BitVec 6) (p : BitVec 3) (s : State) : Out :=
  scalarOp (.sel d a b p) d 1 (fun s => if readP p.toNat s then readS a.toNat s else readS b.toNat s) s

/-! ### Compares and predicates (R157, R158) -/

/-- R157: the condition of CMP and CMPI, and of VICMP on elements of `n` bits (R204). -/
def intCond (cc : Nat) (n x y : Nat) : Bool :=
  match cc with
  | 0 => x == y
  | 1 => x != y
  | 2 => decide (signExt x n < signExt y n)
  | 3 => decide (signExt y n ≤ signExt x n)
  | 4 => decide (x < y)
  | 5 => decide (y ≤ x)
  | 6 => (x &&& y) != 0
  | _ => (x &&& y) == 0

/-- R157 -/
def execCmp (c p : BitVec 3) (a b : BitVec 6) (s : State) : Out :=
  checked (.cmp c p a b) s (fun s =>
    .next (writeP p.toNat (intCond c.toNat 64 (readS a.toNat s).toNat (readS b.toNat s).toNat) 1 s))

/-- R157 -/
def execCmpi (c p : BitVec 3) (a : BitVec 6) (i : BitVec 9) (s : State) : Out :=
  checked (.cmpi c p a i) s (fun s =>
    .next (writeP p.toNat (intCond c.toNat 64 (readS a.toNat s).toNat (toBits 64 (immS 9 i.toNat s.core.slot))) 1 s))

/-- R158, R215: the logic operations of PLOG and MLOG on words. -/
def logicOp (o : Nat) (x y : W64) : W64 :=
  match o with
  | 0 => x &&& y
  | 1 => x ||| y
  | 2 => x ^^^ y
  | 3 => x &&& ~~~y
  | 4 => x ||| ~~~y
  | 5 => ~~~(x &&& y)
  | 6 => ~~~(x ||| y)
  | _ => ~~~(x ^^^ y)

/-- R158: one bit of a logic operation. -/
def logicBit (o : Nat) (x y : Bool) : Bool :=
  (logicOp o (BitVec.ofNat 64 (b2n x)) (BitVec.ofNat 64 (b2n y))).getLsbD 0

/-- R158 -/
def execPlog (d a b o : BitVec 3) (s : State) : Out :=
  checked (.plog d a b o) s (fun s => .next (writeP d.toNat (logicBit o.toNat (readP a.toNat s) (readP b.toNat s)) 1 s))

/-! ### Address generation and bit fields (R159, R160) -/

/-- R159: the iteration index of a level at the start of the group. -/
def groupIdx (l : Nat) (s : State) : W32 := s.core.act.group.idx.getD l 0

/-- R159 -/
def execAgen (d a b : BitVec 6) (l : BitVec 3) (s : State) : Out :=
  scalarOp (.agen d a b l) d 1 (fun s =>
    readS a.toNat s + BitVec.ofNat 64 (groupIdx l.toNat s).toNat * readS b.toNat s) s

/-- R160: the field position a source gives. -/
def fieldPos (b : W64) : Nat := fld b.toNat 0 6
/-- R160: the field width a source gives. -/
def fieldWid (b : W64) : Nat := fld b.toNat 8 6 + 1

/-- R160 -/
def execBxt (d a b : BitVec 6) (x : BitVec 1) (s : State) : Out :=
  scalarOp (.bxt d a b x) d 1 (fun s =>
    let w := readS b.toNat s
    let f := fld (readS a.toNat s).toNat (fieldPos w) (fieldWid w)
    if x == 0 then BitVec.ofNat 64 f else BitVec.ofInt 64 (signExt f (fieldWid w))) s

/-- R160 -/
def execBin (d a b : BitVec 6) (s : State) : Out :=
  scalarOp (.bin d a b) d 1 (fun s =>
    let w := readS b.toNat s
    let n := min (fieldWid w) (64 - fieldPos w)
    BitVec.ofNat 64 (putFld (readS d.toNat s).toNat (fieldPos w) n (readS a.toNat s).toNat)) s

/-! ### Scalar floating point (R157, R161, R162) -/

/-- R150: Fp. -/
def fpOf (v : W64) : Num := fp32.decode (fld v.toNat 0 32)

/-- R161: a scalar floating-point result of latency `L` with its flags. -/
def fpOp (i : Instr) (d : BitVec 6) (L : Nat) (v : State → Nat × Nat) (s : State) : Out :=
  checked i s (fun s =>
    let r := v s
    .next (arith L [(0, r.2)] s (writeS d.toNat (BitVec.ofNat 64 r.1) L)))

/-- R161 -/
def execFadds (d a b : BitVec 6) (s : State) : Out :=
  fpOp (.fadds d a b) d 4 (fun s => fp32.addNum (fpOf (readS a.toNat s)) (fpOf (readS b.toNat s))) s
/-- R161 -/
def execFmuls (d a b : BitVec 6) (s : State) : Out :=
  fpOp (.fmuls d a b) d 4 (fun s => fp32.mulBits (fpOf (readS a.toNat s)) (fpOf (readS b.toNat s))) s
/-- R161 -/
def execFfmas (d a b : BitVec 6) (s : State) : Out :=
  fpOp (.ffmas d a b) d 5 (fun s =>
    fp32.fmaBits (fpOf (readS a.toNat s)) (fpOf (readS b.toNat s)) (fpOf (readS d.toNat s))) s

/-- R157 -/
def execFcmps (c p : BitVec 3) (a b : BitVec 6) (s : State) : Out :=
  checked (.fcmps c p a b) s (fun s =>
    let r := fcmp c.toNat (fpOf (readS a.toNat s)) (fpOf (readS b.toNat s))
    .next (arith 2 [(0, r.2)] s (writeP p.toNat r.1 2)))

/-- R162: the conversion `k` of a 64-bit source, and its flags. -/
def fcvts (k : Nat) (v : W64) : Nat × Nat :=
  let int (n : Nat) (trunc : Bool) : Nat × Nat :=
    let r := (fpOf v).toInt n trunc
    (toBits 64 r.1, r.2)
  match k with
  | 0 => int 32 false
  | 1 => int 32 true
  | 2 => int 64 false
  | 3 => int 64 true
  | 4 => fp32.ofInt false (signExt v.toNat 64)
  | 5 => fp32.ofInt false (signExt v.toNat 32)
  | 6 => bf16.convert false (fpOf v)
  | _ => fp32.convert false (bf16.decode (fld v.toNat 0 16))

/-- R162 -/
def execFcvts (d a : BitVec 6) (k : BitVec 3) (s : State) : Out :=
  fpOp (.fcvts d a k) d 3 (fun s => fcvts k.toNat (readS a.toNat s)) s

end Sys2Proof.Machine
end

