-- ==== Sys2Proof/Machine/Vector.lean ====
section
/-! DEFINITION. Vector arithmetic, logic, compares, conversions, histogram and quantisation, reductions, rearrangements and
mask instructions (R194 to R215, R81 to R83). -/

namespace Sys2Proof.Machine

/-! ### Elements (R72, R194) -/

/-- Bits of an element when a lane holds `k`. -/
def elemBits (k : Nat) : Nat := 32 / k

/-- R72: element `e` of a register with `k` elements a lane. -/
def VReg.el (v : VReg) (k e : Nat) : Nat := fld (v.lanes.getD (e / k) 0).toNat (elemBits k * (e % k)) (elemBits k)

/-- A lane from its elements, the lowest first. -/
def packLane (w : Nat) : List Nat → Nat
  | [] => 0
  | x :: r => x % 2 ^ w + 2 ^ w * packLane w r

/-- The flags of a list of results. -/
def orFlags (l : List (Nat × Nat)) : Nat := l.foldl (fun m p => m ||| p.2) 0

/-- R194: On(e): results element by element in the enabled lanes: the lanes, and the flags of each enabled lane (R354). -/
def elementwise (k : Nat) (m : BitVec 64) (f : Nat → Nat × Nat) : List W32 × List (Nat × Nat) :=
  let rs := (List.range 64).map (fun l => if laneOn m l then (List.range k).map (fun j => f (l * k + j)) else [])
  (rs.map (fun r => BitVec.ofNat 32 (packLane (elemBits k) (r.map Prod.fst))),
    (List.range 64).map (fun l => (l, orFlags (rs.getD l []))))

/-- R194: a result lane by lane. -/
def lanewise (f : Nat → W32) : List W32 := (List.range 64).map f

/-- Lane `l` of a register. -/
def VReg.lane (v : VReg) (l : Nat) : W32 := v.lanes.getD l 0

/-! ### Tags (R197, R351) -/

/-- A specifier as the slot writes it (R177). -/
def asWritten (s : State) (x : BitVec 6) : Nat := (Opnd.vr .va x.toNat).spec s.core.slot.repOff

/-- R344: a specifier and a tag. -/
def specTag (sp tag : Nat) : W64 := BitVec.ofNat 64 (sp + tag * 256)

/-- R197: the first source whose tag a role does not accept. -/
def notAccepted (accept : List Nat) (l : List (Nat × Nat)) : Option (BitVec 8 × W64) :=
  (l.find? (fun p => !accept.contains p.2)).map (fun p => (0x20, specTag p.1 p.2))

/-- R197: the first source of a role whose tag is not that of the role's first source. -/
def unequalTags : List (Nat × Nat) → Option (BitVec 8 × W64)
  | [] => none
  | p :: r => (r.find? (fun q => q.2 != p.2)).map (fun q => (0x21, specTag p.1 q.1))

/-- R351: the first source that carries a tag that is accepted nowhere. -/
def reservedTag (l : List (Nat × Nat)) : Option (BitVec 8 × W64) :=
  (l.find? (fun p => decide (13 ≤ p.2))).map (fun p => (0x22, specTag p.1 p.2))

/-- R197, R342: the tag cause of one role; `none` accepts any tag. -/
def tagFault (accept : Option (List Nat)) (l : List (Nat × Nat)) : Option (BitVec 8 × W64) :=
  (accept.bind (fun a => notAccepted a l)) <|> unequalTags l <|> reservedTag l

/-- Take a cause if there is one. -/
def orTrap (f : Option (BitVec 8 × W64)) (s : State) (k : State → Out) : Out :=
  match f with
  | some t => .next (trap t.1 t.2 s)
  | none => k s

/-- R200: tags of the floating instructions that also take complex pairs. -/
def tagsFpC : List Nat := [1, 2, 3, 12]
/-- R197 -/
def tagsFp : List Nat := [1, 2, 3]
/-- R197 -/
def tagsInt : List Nat := [9, 10, 11]
/-- R197 -/
def tagsShift : List Nat := [0, 9, 10, 11]
/-- R197 -/
def tagsIndex : List Nat := [0, 11]

/-- R195, R196, R199: write the lanes of a floating result with its flags. -/
def fpResult (v : Cluster) (d : BitVec 6) (m : BitVec 64) (tag L : Nat) (r : List W32 × List (Nat × Nat)) (s : State) : Out :=
  .next (arith L r.2 s (writeV v d.toNat m ⟨r.1, tag⟩ L))

/-- R195, R199: write the lanes of a result without flags. -/
def laneResult (v : Cluster) (d : BitVec 6) (m : BitVec 64) (tag L : Nat) (r : List W32) (s : State) : Out :=
  .next (writeV v d.toNat m ⟨r, tag⟩ L s)

/-! ### Floating-point arithmetic (R200, R201) -/

/-- R200: two sources, in the source format. -/
def fp2 (i : Instr) (v : Cluster) (d a b : BitVec 6) (m : BitVec 3) (tags : List Nat) (L : Nat) (f : Fmt → Nat → Nat → Nat × Nat)
    (s : State) : Out :=
  checked i s (fun s =>
    let x := readV v a.toNat s
    let y := readV v b.toNat s
    let k := perLane x.tag
    let mk := readMask v m.toNat s
    orTrap (tagFault (some tags) [(asWritten s a, x.tag), (asWritten s b, y.tag)]) s
      (fpResult v d mk x.tag (L + otherCycle [a.toNat, b.toNat])
        (elementwise k mk (fun e => f (fmtOfTag x.tag) (x.el k e) (y.el k e)))))

/-- R200: one source. -/
def fp1 (i : Instr) (v : Cluster) (d a : BitVec 6) (m : BitVec 3) (tags : List Nat) (L : Nat) (f : Fmt → Nat → Nat × Nat)
    (s : State) : Out :=
  checked i s (fun s =>
    let x := readV v a.toNat s
    let k := perLane x.tag
    let mk := readMask v m.toNat s
    orTrap (tagFault (some tags) [(asWritten s a, x.tag)]) s
      (fpResult v d mk x.tag (L + otherCycle [a.toNat]) (elementwise k mk (fun e => f (fmtOfTag x.tag) (x.el k e)))))

/-- R200: two sources and the destination as addend. -/
def fp3 (i : Instr) (v : Cluster) (d a b : BitVec 6) (m : BitVec 3) (f : Fmt → Num → Num → Num → Nat × Nat) (s : State) : Out :=
  checked i s (fun s =>
    let x := readV v a.toNat s
    let y := readV v b.toNat s
    let z := readV v d.toNat s
    let k := perLane x.tag
    let g := fmtOfTag x.tag
    let mk := readMask v m.toNat s
    orTrap (tagFault (some tagsFp) [(asWritten s a, x.tag), (asWritten s b, y.tag), (asWritten s d, z.tag)]) s
      (fpResult v d mk x.tag (5 + otherCycle [a.toNat, b.toNat])
        (elementwise k mk (fun e => f g (g.decode (x.el k e)) (g.decode (y.el k e)) (g.decode (z.el k e))))))

/-- R200 -/
def execVadd (v : Cluster) (d a b : BitVec 6) (m : BitVec 3) (s : State) : Out :=
  fp2 (.vadd v d a b m) v d a b m tagsFpC 4 (fun f x y => f.addNum (f.decode x) (f.decode y)) s
/-- R200 -/
def execVsub (v : Cluster) (d a b : BitVec 6) (m : BitVec 3) (s : State) : Out :=
  fp2 (.vsub v d a b m) v d a b m tagsFpC 4 (fun f x y => f.addNum (f.decode x) (f.decode y).negate) s
/-- R200 -/
def execVmul (v : Cluster) (d a b : BitVec 6) (m : BitVec 3) (s : State) : Out :=
  fp2 (.vmul v d a b m) v d a b m tagsFp 4 (fun f x y => f.mulBits (f.decode x) (f.decode y)) s
/-- R200 -/
def execVfma (v : Cluster) (d a b : BitVec 6) (m : BitVec 3) (s : State) : Out :=
  fp3 (.vfma v d a b m) v d a b m (fun f x y z => f.fmaBits x y z) s
/-- R200 -/
def execVfms (v : Cluster) (d a b : BitVec 6) (m : BitVec 3) (s : State) : Out :=
  fp3 (.vfms v d a b m) v d a b m (fun f x y z => f.fmaBits x y z.negate) s
/-- R200 -/
def execVfnma (v : Cluster) (d a b : BitVec 6) (m : BitVec 3) (s : State) : Out :=
  fp3 (.vfnma v d a b m) v d a b m (fun f x y z => f.fmaBits x.negate y z) s
/-- R200 -/
def execVmin (v : Cluster) (d a b : BitVec 6) (m : BitVec 3) (s : State) : Out :=
  fp2 (.vmin v d a b m) v d a b m tagsFp 2 (fun f x y => f.minMax false x y) s
/-- R200 -/
def execVmax (v : Cluster) (d a b : BitVec 6) (m : BitVec 3) (s : State) : Out :=
  fp2 (.vmax v d a b m) v d a b m tagsFp 2 (fun f x y => f.minMax true x y) s
/-- R200 -/
def execVabs (v : Cluster) (d a : BitVec 6) (m : BitVec 3) (s : State) : Out :=
  fp1 (.vabs v d a m) v d a m tagsFp 1 (fun f x => f.signOp (fun _ => false) x) s
/-- R200 -/
def execVneg (v : Cluster) (d a : BitVec 6) (m : BitVec 3) (s : State) : Out :=
  fp1 (.vneg v d a m) v d a m tagsFpC 1 (fun f x => f.signOp (fun n => !n) x) s
/-- R200, R201 -/
def execVrcp (v : Cluster) (d a : BitVec 6) (m : BitVec 3) (s : State) : Out :=
  fp1 (.vrcp v d a m) v d a m tagsFp 8 (fun f x => f.rcp (f.decode x)) s
/-- R200, R201 -/
def execVrsq (v : Cluster) (d a : BitVec 6) (m : BitVec 3) (s : State) : Out :=
  fp1 (.vrsq v d a m) v d a m tagsFp 8 (fun f x => f.rsq (f.decode x)) s
/-- R200, R201 -/
def execVexp2 (v : Cluster) (d a : BitVec 6) (m : BitVec 3) (s : State) : Out :=
  fp1 (.vexp2 v d a m) v d a m tagsFp 10 (fun f x => f.exp2 (f.decode x)) s
/-- R200, R201 -/
def execVlog2 (v : Cluster) (d a : BitVec 6) (m : BitVec 3) (s : State) : Out :=
  fp1 (.vlog2 v d a m) v d a m tagsFp 10 (fun f x => f.log2 (f.decode x)) s

/-! ### Integer, logic and shift instructions (R202, R203) -/

/-- R202: an element as an integer, signed unless U. -/
def intOf (u : Bool) (w x : Nat) : Int := if u then (x : Int) else signExt x w

/-- R202: the exact result narrowed to the element: wrapped, or saturated when SAT. -/
def narrow (sat u : Bool) (w : Nat) (x : Int) : Nat :=
  toBits w (if sat then (if u then satU w x else satS w x) else x)

/-- R202: an integer instruction on the elements of A, B and, if it reads it, D. -/
def int3 (i : Instr) (v : Cluster) (d a b : BitVec 6) (m : BitVec 3) (readsD : Bool) (L : Nat) (f : Int → Int → Int → Int)
    (s : State) : Out :=
  checked i s (fun s =>
    let x := readV v a.toNat s
    let y := readV v b.toNat s
    let z := readV v d.toNat s
    let k := perLane x.tag
    let w := elemBits k
    let u := bit s.core.slot.xb.toNat 1
    let sat := bit s.core.slot.xb.toNat 0
    let mk := readMask v m.toNat s
    let srcs := [(asWritten s a, x.tag), (asWritten s b, y.tag)] ++ (if readsD then [(asWritten s d, z.tag)] else [])
    let one (e : Nat) : Nat × Nat :=
      (narrow sat u w (f (intOf u w (x.el k e)) (intOf u w (y.el k e)) (intOf u w (z.el k e))), 0)
    orTrap (tagFault (some tagsInt) srcs) s
      (laneResult v d mk x.tag (L + otherCycle [a.toNat, b.toNat]) (elementwise k mk one).1))

/-- R202 -/
def execViadd (v : Cluster) (d a b : BitVec 6) (m : BitVec 3) (s : State) : Out :=
  int3 (.viadd v d a b m) v d a b m false 2 (fun x y _ => x + y) s
/-- R202 -/
def execVisub (v : Cluster) (d a b : BitVec 6) (m : BitVec 3) (s : State) : Out :=
  int3 (.visub v d a b m) v d a b m false 2 (fun x y _ => x - y) s
/-- R202 -/
def execVimul (v : Cluster) (d a b : BitVec 6) (m : BitVec 3) (s : State) : Out :=
  int3 (.vimul v d a b m) v d a b m false 3 (fun x y _ => x * y) s
/-- R202 -/
def execVimad (v : Cluster) (d a b : BitVec 6) (m : BitVec 3) (s : State) : Out :=
  int3 (.vimad v d a b m) v d a b m true 3 (fun x y z => x * y + z) s
/-- R202 -/
def execVimin (v : Cluster) (d a b : BitVec 6) (m : BitVec 3) (s : State) : Out :=
  int3 (.vimin v d a b m) v d a b m false 2 (fun x y _ => min x y) s
/-- R202 -/
def execVimax (v : Cluster) (d a b : BitVec 6) (m : BitVec 3) (s : State) : Out :=
  int3 (.vimax v d a b m) v d a b m false 2 (fun x y _ => max x y) s

/-- R203, R351: a lane-wise logic operation; of B's tag only 13 to 15 are refused. -/
def logic2 (i : Instr) (v : Cluster) (d a b : BitVec 6) (m : BitVec 3) (f : W32 → W32 → W32) (s : State) : Out :=
  checked i s (fun s =>
    let x := readV v a.toNat s
    let y := readV v b.toNat s
    orTrap (reservedTag [(asWritten s a, x.tag), (asWritten s b, y.tag)]) s
      (laneResult v d (readMask v m.toNat s) x.tag (1 + otherCycle [a.toNat, b.toNat]) (lanewise (fun l => f (x.lane l) (y.lane l)))))

/-- R203 -/
def execVand (v : Cluster) (d a b : BitVec 6) (m : BitVec 3) (s : State) : Out :=
  logic2 (.vand v d a b m) v d a b m (fun x y => x &&& y) s
/-- R203 -/
def execVor (v : Cluster) (d a b : BitVec 6) (m : BitVec 3) (s : State) : Out :=
  logic2 (.vor v d a b m) v d a b m (fun x y => x ||| y) s
/-- R203 -/
def execVxor (v : Cluster) (d a b : BitVec 6) (m : BitVec 3) (s : State) : Out :=
  logic2 (.vxor v d a b m) v d a b m (fun x y => x ^^^ y) s

/-- R203, R208: one source of any tag, lane by lane. -/
def lane1 (i : Instr) (v : Cluster) (d a : BitVec 6) (mk : State → BitVec 64) (L : Nat) (tag : Nat → Nat)
    (f : VReg → Nat → W32) (s : State) : Out :=
  checked i s (fun s =>
    let x := readV v a.toNat s
    orTrap (tagFault none [(asWritten s a, x.tag)]) s
      (laneResult v d (mk s) (tag x.tag) (L + otherCycle [a.toNat]) (lanewise (f x))))

/-- R203 -/
def execVnot (v : Cluster) (d a : BitVec 6) (m : BitVec 3) (s : State) : Out :=
  lane1 (.vnot v d a m) v d a (readMask v m.toNat) 1 id (fun x l => ~~~(x.lane l)) s

/-- R203: a shift of each element by the corresponding element of B. -/
def shift2 (i : Instr) (v : Cluster) (d a b : BitVec 6) (m : BitVec 3) (f : Nat → Nat → Nat → Nat) (s : State) : Out :=
  checked i s (fun s =>
    let x := readV v a.toNat s
    let y := readV v b.toNat s
    let k := perLane x.tag
    let w := elemBits k
    let mk := readMask v m.toNat s
    orTrap (tagFault (some tagsShift) [(asWritten s a, x.tag), (asWritten s b, y.tag)]) s
      (laneResult v d mk x.tag (1 + otherCycle [a.toNat, b.toNat])
        (elementwise k mk (fun e => (f w (x.el k e) (y.el k e % w), 0))).1))

/-- R203 -/
def execVshl (v : Cluster) (d a b : BitVec 6) (m : BitVec 3) (s : State) : Out :=
  shift2 (.vshl v d a b m) v d a b m (fun w x n => x * 2 ^ n % 2 ^ w) s
/-- R203 -/
def execVshr (v : Cluster) (d a b : BitVec 6) (m : BitVec 3) (s : State) : Out :=
  shift2 (.vshr v d a b m) v d a b m (fun _ x n => x / 2 ^ n) s
/-- R203 -/
def execVsra (v : Cluster) (d a b : BitVec 6) (m : BitVec 3) (s : State) : Out :=
  shift2 (.vsra v d a b m) v d a b m (fun w x n => toBits w (signExt x w / 2 ^ n)) s

/-! ### Compares, selects and the compare-exchange (R204 to R206) -/

/-- R204: the destination mask: enabled lanes in which the condition holds for every element. -/
def condMask (k : Nat) (m : BitVec 64) (f : Nat → Bool) : BitVec 64 :=
  BitVec.ofNat 64 ((List.range 64).foldl (fun r l =>
    if laneOn m l && (List.range k).all (fun j => f (l * k + j)) then r + 2 ^ l else r) 0)

/-- R204 -/
def execVcmp (v : Cluster) (c d : BitVec 3) (a b : BitVec 6) (m : BitVec 3) (s : State) : Out :=
  checked (.vcmp v c d a b m) s (fun s =>
    let x := readV v a.toNat s
    let y := readV v b.toNat s
    let k := perLane x.tag
    let g := fmtOfTag x.tag
    let mk := readMask v m.toNat s
    let r (e : Nat) : Bool × Nat := fcmp c.toNat (g.decode (x.el k e)) (g.decode (y.el k e))
    let L := 2 + otherCycle [a.toNat, b.toNat]
    orTrap (tagFault (some tagsFp) [(asWritten s a, x.tag), (asWritten s b, y.tag)]) s (fun s =>
      .next (arith L (elementwise k mk (fun e => (0, (r e).2))).2 s
        (writeMask v d.toNat (condMask k mk (fun e => (r e).1)) L))))

/-- R204 -/
def execVicmp (v : Cluster) (c d : BitVec 3) (a b : BitVec 6) (m : BitVec 3) (s : State) : Out :=
  checked (.vicmp v c d a b m) s (fun s =>
    let x := readV v a.toNat s
    let y := readV v b.toNat s
    let k := perLane x.tag
    let mk := readMask v m.toNat s
    orTrap (tagFault (some tagsShift) [(asWritten s a, x.tag), (asWritten s b, y.tag)]) s (fun s =>
      .next (writeMask v d.toNat (condMask k mk (fun e => intCond c.toNat (elemBits k) (x.el k e) (y.el k e)))
        (2 + otherCycle [a.toNat, b.toNat]) s)))

/-- R205 -/
def execVsel (v : Cluster) (d a b : BitVec 6) (k : BitVec 3) (s : State) : Out :=
  checked (.vsel v d a b k) s (fun s =>
    let x := readV v a.toNat s
    let y := readV v b.toNat s
    let mk := readMask v k.toNat s
    orTrap (tagFault none [(asWritten s a, x.tag), (asWritten s b, y.tag)]) s
      (laneResult v d (BitVec.allOnes 64) x.tag (1 + otherCycle [a.toNat, b.toNat])
        (lanewise (fun l => if laneOn mk l then x.lane l else y.lane l))))

/-- R206: the lanes in which VCX exchanges. -/
def exchanges (int small : Bool) (x i y j : VReg) (l : Nat) : Bool :=
  rankAbove int small (y.lane l).toNat (j.lane l).toNat (x.lane l).toNat (i.lane l).toNat

/-- R206 -/
def execVcx (v : Cluster) (z : BitVec 1) (a b : BitVec 6) (m : BitVec 3) (s : State) : Out :=
  checked (.vcx v z a b m) s (fun s =>
    let x := readV v a.toNat s
    let i := readV v (a.toNat + 8) s
    let y := readV v b.toNat s
    let j := readV v (b.toNat + 8) s
    let mk := readMask v m.toNat s
    let sa := asWritten s a
    let sb := asWritten s b
    let vals := [(sa, x.tag), (sb, y.tag)]
    let idxs := [(sa + 8, i.tag), (sb + 8, j.tag)]
    orTrap (notAccepted [1, 11] vals <|> notAccepted tagsIndex idxs <|> unequalTags vals <|> unequalTags idxs) s (fun s =>
      let ex := exchanges (x.tag == 11) (z == 1) x i y j
      let sel (p q : VReg) : VReg := ⟨lanewise (fun l => if ex l then q.lane l else p.lane l), p.tag⟩
      let s := writeV v a.toNat mk (sel x y) 3 s
      let s := writeV v (a.toNat + 8) mk (sel i j) 3 s
      let s := writeV v b.toNat mk (sel y x) 3 s
      .next (writeV v (b.toNat + 8) mk (sel j i) 3 s)))

/-! ### Conversions, tags and moves (R207, R208) -/

/-- R72: bits of an integer tag. -/
def intTagBits (t : Nat) : Nat := if t == 9 then 8 else if t == 10 then 16 else 32

/-- R207: Cvt of one element from tag `st` to tag `tt`, with its flags. -/
def cvtElem (st tt : Nat) (trunc sat : Bool) (x : Nat) : Nat × Nat :=
  let toInt := decide (9 ≤ tt)
  if 9 ≤ st then
    let v := signExt x (intTagBits st)
    if toInt then
      let c := satS (intTagBits tt) v
      (toBits (intTagBits tt) c, if c != v then flNV else 0)
    else (fmtOfTag tt).ofInt sat v
  else
    let n := (fmtOfTag st).decode x
    if st == tt then
      match n with
      | .nan s => ((fmtOfTag tt).nan, if s then flNV else 0)
      | _ => (x, 0)
    else if toInt then
      let r := n.toInt (intTagBits tt) trunc
      (toBits (intTagBits tt) r.1, r.2)
    else (fmtOfTag tt).convert sat n

/-- R207: the elements of a destination lane `l` in a conversion of part `p`, with the flags raised. -/
def cvtLane (st tt p : Nat) (trunc sat : Bool) (x d : VReg) (l : Nat) : List Nat × Nat :=
  let ns := perLane st
  let nd := perLane tt
  if ns ≤ nd then
    let rs := (List.range ns).map (fun j => cvtElem st tt trunc sat (x.el ns (l * ns + j)))
    let keep (j : Nat) : Nat := d.el nd (l * nd + j)
    ((List.range nd).map (fun j => if p * ns ≤ j && j < p * ns + ns then (rs.getD (j - p * ns) (0, 0)).1 else keep j), orFlags rs)
  else
    let rs := (List.range nd).map (fun j => cvtElem st tt trunc sat (x.el ns (l * ns + p * nd + j)))
    (rs.map Prod.fst, orFlags rs)

/-- R207 -/
def execVcvt (v : Cluster) (d a : BitVec 6) (p : BitVec 2) (t : BitVec 4) (m : BitVec 3) (s : State) : Out :=
  checked (.vcvt v d a p t m) s (fun s =>
    let x := readV v a.toNat s
    let nd := perLane t.toNat
    let ns := perLane x.tag
    let r := if ns ≤ nd then nd / ns else ns / nd
    let reserved := if 13 ≤ t.toNat then some (0x22, specTag (asWritten s d) t.toNat) else none
    let part := if r ≤ p.toNat then some (0x28, BitVec.ofNat 64 p.toNat) else none
    orTrap (tagFault (some tagsCvt) [(asWritten s a, x.tag)] <|> reserved <|> part) s (fun s =>
      let mk := readMask v m.toNat s
      let rs := (List.range 64).map (fun l =>
        if laneOn mk l then
          cvtLane x.tag t.toNat p.toNat (bit s.core.slot.xb.toNat 0) (bit s.core.slot.xb.toNat 1) x (readV v d.toNat s) l
        else ([], 0))
      fpResult v d mk t.toNat (3 + otherCycle [a.toNat])
        (rs.map (fun e => BitVec.ofNat 32 (packLane (elemBits nd) e.1)), (List.range 64).map (fun l => (l, (rs.getD l ([], 0)).2))) s))

/-- R208 -/
def execVtag (v : Cluster) (d a : BitVec 6) (t : BitVec 4) (m : BitVec 3) (s : State) : Out :=
  checked (.vtag v d a t m) s (fun s =>
    let x := readV v a.toNat s
    let named := if 13 ≤ t.toNat then some (0x22, specTag (asWritten s d) t.toNat) else none
    orTrap (tagFault none [(asWritten s a, x.tag)] <|> named) s
      (laneResult v d (readMask v m.toNat s) t.toNat (1 + otherCycle [a.toNat]) x.lanes))

/-- R208 -/
def execVmov (v : Cluster) (d a : BitVec 6) (m : BitVec 3) (s : State) : Out :=
  lane1 (.vmov v d a m) v d a (readMask v m.toNat) 1 id (fun x l => x.lane l) s

/-- R208 -/
def execVxfer (v : Cluster) (d a : BitVec 6) (m : BitVec 3) (s : State) : Out :=
  lane1 (.vxfer v d a m) v d a (readMask v m.toNat) 2 id (fun x l => x.lane l) s

/-! ### Histogram and quantisation (R81 to R83, R209 to R211) -/

/-- R81: the histogram of a cluster. -/
def Context.hist (v : Cluster) (c : Context) : List W32 :=
  match v with
  | .va => c.histA
  | .vb => c.histB

/-- Replace the histogram of a cluster. -/
def Context.setHist (v : Cluster) (h : List W32) (c : Context) : Context :=
  match v with
  | .va => { c with histA := h }
  | .vb => { c with histB := h }

/-- R209: note when the counts of a VHIST are in the bins. -/
def Context.setHistReady (v : Cluster) (cy : Nat) (c : Context) : Context :=
  match v with
  | .va => { c with histReadyA := cy }
  | .vb => { c with histReadyB := cy }

/-- R84: QBASE.BASE. -/
def qbaseOf (c : Context) : Int := signExt c.qbase.toNat 8

/-- R81: the bin of a finite nonzero value. -/
def binOf (base : Int) (m : Nat) (e : Int) : Nat := (min (max (Num.exp m e - base) 0) 63).toNat

/-- R81: count one in a bin. -/
def countBin (h : List W32) (b : Nat) : List W32 :=
  let x := h.getD b 0
  h.set b (if x == 0xFFFFFFFF#32 then x else x + 1)

/-- R81, R209 -/
def execVhist (v : Cluster) (a : BitVec 6) (m : BitVec 3) (s : State) : Out :=
  checked (.vhist v a m) s (fun s =>
    let x := readV v a.toNat s
    let k := perLane x.tag
    let mk := readMask v m.toNat s
    let base := qbaseOf s.core.act
    orTrap (tagFault (some tagsFp) [(asWritten s a, x.tag)]) s (fun s =>
      let h := (List.range (64 * k)).foldl (fun h e =>
        if laneOn mk (e / k) then
          match (fmtOfTag x.tag).decode (x.el k e) with
          | .fin _ mm ee => if mm == 0 then h else countBin h (binOf base mm ee)
          | _ => h
        else h) (s.core.act.hist v)
      .next (modAct (fun c => (c.setHist v h).setHistReady v (s.core.cycle + 4)) s)))

/-- R209: the bins as a register. -/
def histReg (v : Cluster) (s : State) : VReg := ⟨s.core.act.hist v, 11⟩

/-- R81: every bin to zero. -/
def clearHist (v : Cluster) (s : State) : State := modAct (Context.setHist v (List.replicate 64 0)) s

/-- R209 -/
def execVhclrRd (v : Cluster) (d : BitVec 6) (s : State) : Out :=
  checked (.vhclrRd v d) s (fun s => .next (writeV v d.toNat (BitVec.allOnes 64) (histReg v s) 2 s))
/-- R209 -/
def execVhclr (v : Cluster) (s : State) : Out := checked (.vhclr v) s (fun s => .next (clearHist v s))
/-- R209 -/
def execVhclrRdc (v : Cluster) (d : BitVec 6) (s : State) : Out :=
  checked (.vhclrRdc v d) s (fun s => .next (clearHist v (writeV v d.toNat (BitVec.allOnes 64) (histReg v s) 2 s)))

/-- R82: the least bin at which the running sum reaches `need`. -/
def reachBin (need : Nat) : List W32 → Nat → Nat → Nat
  | [], b, _ => b
  | x :: r, b, sum => if need ≤ sum + x.toNat then b else reachBin need r (b + 1) (sum + x.toNat)

/-- R82: the clip exponent. -/
def clipExp (h : List W32) (pct : Nat) (base : Int) : Int :=
  let n := (h.map BitVec.toNat).sum
  if n == 0 then 127 else base + reachBin (ceilDiv (n * min pct 1024) 1024) h 0 0

/-- R83: the exponent of an element as the maxima take it; none for a zero or a NaN. -/
def quantExp : Num → Option Int
  | .nan _ => none
  | .inf _ => some 128
  | .fin _ m e => if m == 0 then none else some (Num.exp m e)

/-- The largest exponent of a list. -/
def maxExp (l : List Num) : Option Int :=
  l.foldl (fun m x =>
    match m, quantExp x with
    | some a, some b => some (max a b)
    | some a, none => some a
    | none, r => r) none

/-- R83: the code (sign above w magnitude bits) of an element at scale 2^q, with its flags. -/
def quantCode (w : Nat) (q : Int) : Num → Nat × Nat
  | .nan _ => (0, flNV)
  | .inf n => (b2n n * 2 ^ w + (2 ^ w - 1), flOF)
  | .fin n m e =>
    let r := roundAt m e q
    if 2 ^ w ≤ r.1 then (b2n n * 2 ^ w + (2 ^ w - 1), flOF + flNX)
    else (b2n n * 2 ^ w + r.1, if r.2 then 0 else flNX)

/-- R83: a quantised block: the shared exponent, the step byte, the packed fields, and the flags of its elements. -/
def quantBlock (w : Nat) (c : Int) (xs : List Num) : Nat × Nat × Nat × List Nat :=
  let e := match maxExp xs with
    | none => (-127 : Int)
    | some t => max (min t (min c 127)) (-127)
  let sg (j : Nat) : Nat :=
    match maxExp ((xs.drop (4 * j)).take 4) with
    | none => 3
    | some t => (min 3 (max 0 (e - t))).toNat
  let codes := (List.range 16).map (fun i => quantCode w (e - sg (i / 4) - (w - 1)) (xs.getD i (.fin false 0 0)))
  ((e + 127).toNat, sg 0 + sg 1 * 4 + sg 2 * 16 + sg 3 * 64, packLane (w + 1) (codes.map Prod.fst), codes.map Prod.snd)

/-- R70: w of block format tag `t`. -/
def blockW (t : Nat) : Nat := if t == 6 then 7 else if t == 7 then 4 else 2

/-- R72: blocks of a tile row of a block tag. -/
def blocksOf (t : Nat) : Nat := if t == 6 then 8 else if t == 7 then 12 else 16

/-- The value of a tile-row image: data in bits below 1024, side bytes above (R73). -/
def imageOf (v : VReg) : Nat := packLane 32 ((v.lanes.take 40).map BitVec.toNat)

/-- R73: a tile-row image as lanes. -/
def imageLanes (x : Nat) : List W32 := (List.range 64).map (fun l => BitVec.ofNat 32 (if l < 40 then x / 2 ^ (32 * l) else 0))

/-- R210: an image with a block put in its place. -/
def putBlock (w blk e step fields img : Nat) : Nat :=
  putFld (putFld (putFld img (1024 + 16 * blk) 8 e) (1024 + 16 * blk + 8) 8 step) (16 * (w + 1) * blk) (16 * (w + 1)) fields

/-- R210: the limit of the part of a block format. -/
def partLimit (f : Nat) : Nat := f + 2

/-- R210 -/
def execVqnt (v : Cluster) (d a : BitVec 6) (p f : BitVec 2) (s : State) : Out :=
  checked (.vqnt v d a p f) s (fun s =>
    let x := readV v a.toNat s
    let z := readV v d.toNat s
    let tg := 6 + f.toNat
    let w := blockW tg
    let part := if partLimit f.toNat ≤ p.toNat then some (0x28, BitVec.ofNat 64 p.toNat) else none
    orTrap (tagFault (some [1]) [(asWritten s a, x.tag)] <|> part) s (fun s =>
      let c := s.core.act
      let clip := clipExp (c.hist v) (fld c.qpct.toNat 0 11) (qbaseOf c)
      let qs := [0, 1, 2, 3].map (fun q => quantBlock w clip ((List.range 16).map (fun i => fp32.decode (x.el 1 (16 * q + i)))))
      let img := [0, 1, 2, 3].foldl (fun img q =>
        let b := qs.getD q (0, 0, 0, [])
        putBlock w (4 * p.toNat + q) b.1 b.2.1 b.2.2.1 img) (if z.tag == tg then imageOf z else 0)
      let fl := qs.flatMap (fun b => b.2.2.2)
      fpResult v d (BitVec.allOnes 64) tg (6 + otherCycle [a.toNat])
        (imageLanes img, (List.range 64).map (fun l => (l, fl.getD l 0))) s))

/-- R70, R73: element `n` of an image of block tag `t`. -/
def imageElem (t img n : Nat) : Num :=
  let w := blockW t
  let b := n / 16
  blockValue w (fld img (1024 + 16 * b) 8) (fld img (1024 + 16 * b + 8 + 2 * (n % 16 / 4)) 2) (fld img ((w + 1) * n) (w + 1))

/-- R349: the first block among those whose value is taken that has shared exponent 0xFF. -/
def badBlock (img : Nat) (blocks : List Nat) : Option Nat := blocks.find? (fun b => fld img (1024 + 16 * b) 8 == 0xFF)

/-- R211, R349 -/
def execVdqnt (v : Cluster) (d a : BitVec 6) (p : BitVec 2) (m : BitVec 3) (s : State) : Out :=
  checked (.vdqnt v d a p m) s (fun s =>
    let x := readV v a.toNat s
    let mk := readMask v m.toNat s
    let img := imageOf x
    let part := if partLimit (x.tag - 6) ≤ p.toNat then some (0x28, BitVec.ofNat 64 p.toNat) else none
    let taken := ([0, 1, 2, 3].filter (fun q => (List.range 16).any (fun i => laneOn mk (16 * q + i)))).map (fun q => 4 * p.toNat + q)
    let bad := (badBlock img taken).map (fun b => (0x45, specTag (asWritten s a) b))
    orTrap (tagFault (some [6, 7, 8]) [(asWritten s a, x.tag)] <|> part <|> bad) s
      (laneResult v d mk 1 (3 + otherCycle [a.toNat])
        (lanewise (fun l => BitVec.ofNat 32 (fp32.roundNum (imageElem x.tag img (64 * p.toNat + l))).1))))

/-! ### Reductions and scans (R212, R213) -/

/-- R212: one level of the tree: each node with the elements it covers, and the flags of each addition by lane. -/
def treeLevel (k : Nat) : List (Num × Nat × Nat) → List (Num × Nat × Nat) × List (Nat × Nat)
  | x :: y :: r =>
    let z := fp32.addNum x.1 y.1
    let rest := treeLevel k r
    let lanes := if z.2 == 0 then [] else (List.range (y.2.2 / k - x.2.1 / k + 1)).map (fun i => (x.2.1 / k + i, z.2))
    ((fp32.decode z.1, x.2.1, y.2.2) :: rest.1, lanes ++ rest.2)
  | l => (l, [])

/-- R212: the levels of the tree. -/
def treeSum (k : Nat) : Nat → List (Num × Nat × Nat) → List (Num × Nat × Nat) × List (Nat × Nat)
  | 0, l => (l, [])
  | n + 1, l =>
    let a := treeLevel k l
    let b := treeSum k n a.1
    (b.1, a.2 ++ b.2)

/-- R212: FADD. -/
def reduceAdd (x : VReg) (mk : BitVec 64) : Nat × List (Nat × Nat) :=
  let k := perLane x.tag
  let f := fmtOfTag x.tag
  let leaves := (List.range (64 * k)).map (fun e => (if laneOn mk (e / k) then f.decode (x.el k e) else .fin true 0 0, e, e))
  let r := treeSum k 8 leaves
  ((fp32.roundNum ((r.1.headD (.fin true 0 0, 0, 0)).1)).1, r.2)

/-- R212: FMAX and FMIN of the enabled elements, converted exactly to FP32. -/
def reduceMax (mx : Bool) (x : VReg) (mk : BitVec 64) : Nat × List (Nat × Nat) :=
  let k := perLane x.tag
  let f := fmtOfTag x.tag
  (List.range (64 * k)).foldl (fun r e =>
    if laneOn mk (e / k) then
      let n := f.decode (x.el k e)
      ((fp32.minMax mx r.1 (fp32.convert false n).1).1, if n.isSnan then r.2 ++ [(e / k, flNV)] else r.2)
    else r) (fp32.inf mx, [])

/-- R212, R213: the integer operations on elements of `w` bits: the value that disabled elements count as. -/
def intIdentity (op w : Nat) : Int :=
  match op with
  | 4 => -(2 ^ (w - 1) : Int)
  | 5 => 2 ^ (w - 1) - 1
  | 7 => 2 ^ w - 1
  | _ => 0

/-- R212: one step of an integer operation. -/
def intStep (op : Nat) (x y : Int) : Int :=
  match op with
  | 3 => x + y
  | 4 | 6 => max x y
  | _ => min x y

/-- R212: an element as an operation takes it. -/
def intElem (op w x : Nat) : Int := intOf (decide (6 ≤ op)) w x

/-- R212: the integer reductions. -/
def reduceInt (op : Nat) (x : VReg) (mk : BitVec 64) : Int :=
  let k := perLane x.tag
  let w := elemBits k
  (List.range (64 * k)).foldl (fun r e =>
    if laneOn mk (e / k) then intStep op r (intElem op w (x.el k e)) else r) (intIdentity op w)

/-- R212 -/
def execVreds (v : Cluster) (d a : BitVec 6) (o m : BitVec 3) (s : State) : Out :=
  checked (.vreds v d a o m) s (fun s =>
    let x := readV v a.toNat s
    let mk := readMask v m.toNat s
    let L := 8 + otherCycle [a.toNat]
    orTrap (tagFault (some (if o.toNat < 3 then tagsFp else tagsInt)) [(asWritten s a, x.tag)]) s (fun s =>
      if o.toNat < 3 then
        let r := if o.toNat == 0 then reduceAdd x mk else reduceMax (o.toNat == 1) x mk
        .next (arith L r.2 s (writeS d.toNat (BitVec.ofNat 64 r.1) L))
      else .next (writeS d.toNat (BitVec.ofInt 64 (reduceInt o.toNat x mk)) L s)))

/-- R213: the identity of a scan in the source format. -/
def scanIdentity (f : Fmt) (op w : Nat) : Nat :=
  match op with
  | 0 => f.signBit true
  | 1 => f.inf true
  | 2 => f.inf false
  | _ => toBits w (intIdentity op w)

/-- R213: one step of a scan on element fields. -/
def scanStep (f : Fmt) (op w s x : Nat) : Nat × Nat :=
  match op with
  | 0 => f.addNum (f.decode s) (f.decode x)
  | 1 => f.minMax true s x
  | 2 => f.minMax false s x
  | _ => (toBits w (intStep op (intElem op w s) (intElem op w x)), 0)

/-- R213: a scan over the elements: the running value and the results, the latest first. -/
def scanAll (f : Fmt) (op k : Nat) (x : VReg) (mk : BitVec 64) : Nat × List (Nat × Nat) :=
  (List.range (64 * k)).foldl (fun r e =>
    if laneOn mk (e / k) then
      let z := scanStep f op (elemBits k) r.1 (x.el k e)
      (z.1, z :: r.2)
    else (r.1, (0, 0) :: r.2)) (scanIdentity f op (elemBits k), [])

/-- R213 -/
def execVscan (v : Cluster) (d a : BitVec 6) (o m : BitVec 3) (s : State) : Out :=
  checked (.vscan v d a o m) s (fun s =>
    let x := readV v a.toNat s
    let mk := readMask v m.toNat s
    let k := perLane x.tag
    orTrap (tagFault (some (if o.toNat < 3 then tagsFp else tagsInt)) [(asWritten s a, x.tag)]) s (fun s =>
      let rs := (scanAll (fmtOfTag x.tag) o.toNat k x mk).2.reverse
      fpResult v d mk x.tag (8 + otherCycle [a.toNat]) (elementwise k mk (fun e => rs.getD e (0, 0))) s))

/-! ### Rearrangements (R214) -/

/-- R214 -/
def execVperm (v : Cluster) (d a b : BitVec 6) (m : BitVec 3) (s : State) : Out :=
  checked (.vperm v d a b m) s (fun s =>
    let x := readV v a.toNat s
    let y := readV v b.toNat s
    orTrap (notAccepted tagsIndex [(asWritten s b, y.tag)] <|> tagFault none [(asWritten s a, x.tag)]) s
      (laneResult v d (readMask v m.toNat s) x.tag (3 + otherCycle [a.toNat, b.toNat])
        (lanewise (fun l => x.lane (fld (y.lane l).toNat 0 6)))))

/-- R214: lane `l` of a pattern. -/
def shufLane (pat : Nat) (x y : VReg) (l : Nat) : W32 :=
  let c (i : Nat) : W32 := if i < 64 then x.lane i else y.lane (i - 64)
  match pat with
  | 0 => if l % 2 == 0 then x.lane (l / 2) else y.lane (l / 2)
  | 1 => if l % 2 == 0 then x.lane (32 + l / 2) else y.lane (32 + l / 2)
  | 2 => c (2 * l)
  | 3 => c (2 * l + 1)
  | 4 => c (32 + l)
  | 5 => c (l + 1)
  | 6 => x.lane (63 - l)
  | _ => x.lane (l ^^^ 32)

/-- R214 -/
def execVshuf (v : Cluster) (d a b : BitVec 6) (p : BitVec 3) (s : State) : Out :=
  checked (.vshuf v d a b p) s (fun s =>
    let x := readV v a.toNat s
    let y := readV v b.toNat s
    let two := decide (p.toNat < 6)
    orTrap (tagFault none ((asWritten s a, x.tag) :: (if two then [(asWritten s b, y.tag)] else []))) s
      (laneResult v d (BitVec.allOnes 64) x.tag (2 + otherCycle (a.toNat :: (if two then [b.toNat] else [])))
        (lanewise (shufLane p.toNat x y))))

/-- R214 -/
def execVbcastS (v : Cluster) (d a : BitVec 6) (t : BitVec 4) (s : State) : Out :=
  checked (.vbcastS v d a t) s (fun s =>
    orTrap (if 13 ≤ t.toNat then some (0x22, specTag (asWritten s d) t.toNat) else none) s
      (laneResult v d (BitVec.allOnes 64) t.toNat 2 (lanewise (fun _ => (readS a.toNat s).setWidth 32))))

/-- R214 -/
def execVbcastL (v : Cluster) (d a k : BitVec 6) (s : State) : Out :=
  lane1 (.vbcastL v d a k) v d a (fun _ => BitVec.allOnes 64) 2 id (fun x _ => x.lane k.toNat) s

/-- R214 -/
def execViota (v : Cluster) (d a b : BitVec 6) (m : BitVec 3) (s : State) : Out :=
  checked (.viota v d a b m) s (fun s =>
    laneResult v d (readMask v m.toNat s) 11 1
      (lanewise (fun l => (readS a.toNat s + BitVec.ofNat 64 l * readS b.toNat s).setWidth 32)) s)

/-! ### Mask instructions (R215) -/

/-- R215 -/
def execMlog (v : Cluster) (d a b : BitVec 6) (o : BitVec 3) (s : State) : Out :=
  checked (.mlog v d a b o) s (fun s =>
    .next (writeMask v d.toNat (logicOp o.toNat (readMask v a.toNat s) (readMask v b.toNat s)) 1 s))

/-- R215 -/
def execMpop (v : Cluster) (d a : BitVec 6) (m : BitVec 3) (s : State) : Out :=
  checked (.mpop v d a m) s (fun s =>
    .next (writeS d.toNat (BitVec.ofNat 64 (popCount (readMask v a.toNat s &&& readMask v m.toNat s).toNat 64)) 2 s))

/-- R215 -/
def execMffs (v : Cluster) (d a : BitVec 6) (m : BitVec 3) (s : State) : Out :=
  checked (.mffs v d a m) s (fun s =>
    let x := (readMask v a.toNat s &&& readMask v m.toNat s).toNat
    .next (writeS d.toNat (BitVec.ofNat 64 (((List.range 64).find? (fun l => bit x l)).getD 64)) 2 s))

/-- R215 -/
def execMmovs (v : Cluster) (d a : BitVec 6) (s : State) : Out :=
  checked (.mmovs v d a) s (fun s => .next (writeS d.toNat (readMask v a.toNat s) 2 s))

/-- R215 -/
def execMfroms (v : Cluster) (d a : BitVec 6) (s : State) : Out :=
  checked (.mfroms v d a) s (fun s => .next (writeMask v d.toNat (readS a.toNat s) 2 s))

end Sys2Proof.Machine
end

