-- ==== Sys2Proof/Machine/VecMem.lean ====
section
/-! DEFINITION. Vector memory (R216 to R219). -/

namespace Sys2Proof.Machine

/-- R216: lanes 0 to 39. -/
def low40 : BitVec 64 := BitVec.ofNat 64 (2 ^ 40 - 1)

/-- The enabled lanes of a mask, ascending. -/
def maskLanes (m : BitVec 64) : List Nat := (List.range 64).filter (laneOn m)

/-- R219, R131: an access whose lanes `ls` go to vector destination `x` of cluster `v` under mask `wm`: after `L` cycles from
the home window, else when its answer arrives. -/
def vectorAccess (home : Bool) (a : Access) (v : Cluster) (x : Nat) (wm : BitVec 64) (tag : Nat) (ls : List Nat) (L : Nat)
    (s : State) : State :=
  let pend (s : State) : State := writeVDue v x wm ⟨List.replicate 64 0, tag⟩ none s
  if home then
    match homeAccess a s with
    | (some e, s) => writeV v x wm ⟨lanesFrom ls e.data, tag⟩ L s
    | (none, s) => pend s
  else pend (sendAccess a s)

/-- The access of a vector load. -/
def vectorLoad (home : Bool) (va : Nat) (ps : List Piece) (v : Cluster) (x : Nat) (wm : BitVec 64) (tag : Nat) (ls : List Nat)
    (L : Nat) (s : State) : State :=
  let a := mkAccess s s.core.slot.xb.toNat false false va ps .load (.vector s.core.act.nextRid ls tag) (answerUnits s home L ps)
  vectorAccess home a v x wm tag ls L s

/-- The access of a vector store. -/
def vectorStore (home : Bool) (va : Nat) (ps : List Piece) (bs : List Byte) (s : State) : State :=
  makeAccess home (mkAccess s s.core.slot.xb.toNat false false va ps (.store bs) .none (answerUnits s home 1 ps)) s

/-- The runs of consecutive numbers of an ascending list, each as its first number and its length. -/
def runsOf : List Nat → List (Nat × Nat)
  | [] => []
  | x :: r =>
    match runsOf r with
    | [] => [(x, 1)]
    | (y, n) :: q => if y == x + 1 then (x, n + 1) :: q else (x, 1) :: (y, n) :: q

/-- R217: the pieces of the enabled lanes of a span that was translated as one access from lane `lo`, a piece for each run of
lanes. -/
def spanPieces (p : Piece) (lo : Nat) (ls : List Nat) : List Piece :=
  (runsOf ls).map (fun r => ⟨p.pa + 4 * (r.1 - lo), 4 * r.2, p.key⟩)

/-- The bytes of lanes of a register. -/
def laneBytes (x : VReg) (ls : List Nat) : List Byte := ls.flatMap (fun l => toBytes 4 (x.lane l).toNat)

/-- R217: the span of the lanes of a load or store at a base address, translated as one access. -/
def spanAccess (base : Nat) (ls : List Nat) (kind : AccessKind) (op : AccessOp) (s : State)
    (k : Bool → Nat → List Piece → State → Out) : Out :=
  let lo := ls.headD 0
  let hi := ls.getLastD 0
  let va := (base + 4 * lo) % 2 ^ 64
  match xlate va (4 * (hi - lo + 1)) kind 4 s with
  | .fail e v => .next (trapAt va e v s)
  | .ok p =>
    let ps := spanPieces p lo ls
    reach ps va op s (k (isHome va (4 * (hi - lo + 1))) va ps)

/-- R216 -/
def execLdv (v : Cluster) (d a : BitVec 6) (t : BitVec 4) (m : BitVec 3) (s : State) : Out :=
  checked (.ldv v d a t m) s (fun s =>
    let mk := readMask v m.toNat s
    let acc := if isBlock t.toNat then mk &&& low40 else mk
    let wm := if isBlock t.toNat then acc ||| ~~~low40 else mk
    let ls := maskLanes acc
    orTrap (if 13 ≤ t.toNat then some (0x22, specTag (asWritten s d) t.toNat) else none) s (fun s =>
      if ls.isEmpty then laneResult v d wm t.toNat 6 (List.replicate 64 0) s
      else spanAccess (readS a.toNat s).toNat ls .read .load s (fun home va ps s =>
        .next (vectorLoad home va ps v d.toNat wm t.toNat ls 6 s))))

/-- R119, R216, R217 -/
def execStv (v : Cluster) (a b : BitVec 6) (m : BitVec 3) (s : State) : Out :=
  checked (.stv v a b m) s (fun s =>
    let x := readV v b.toNat s
    let mk := readMask v m.toNat s
    let ls := maskLanes (if isBlock x.tag then mk &&& low40 else mk)
    let base := (readS a.toNat s).toNat
    orTrap (tagFault none [(asWritten s b, x.tag)]) s (fun s =>
      if ls.isEmpty then emptyWrite base s
      else spanAccess base ls .write (.store (laneBytes x ls)) s (fun home va ps s =>
        .next (vectorStore home va ps (laneBytes x ls) s))))

/-- R217, R373: translate each lane; the failure R342 ranks first, of the lowest lane that meets it, or the pieces. -/
def laneXlate (s : State) (kind : AccessKind) (vas : List Nat) : List Piece × Option (BitVec 8 × W64 × Nat) :=
  vas.foldr (fun va r =>
    match xlate va 4 kind 4 s with
    | .ok p => (p :: r.1, r.2)
    | .fail e v =>
      match r.2 with
      | none => (r.1, some (e, v, va))
      | some f => (r.1, if e ≤ f.1 then some (e, v, va) else some f)) ([], none)

/-- R219: the largest number of distinct 16-byte units that lanes touch in one of the 32 banks. -/
def bankLoad (vas : List Nat) : Nat :=
  let units := (vas.map (fun a => a / 16)).eraseDups
  (List.range 32).foldl (fun m b => max m (units.filter (fun u => u % 32 == b)).length) 0

/-- R373, R379: the address of the lowest lane whose piece meets uncorrectable data; of the first lane where none does. -/
def lostLane (s : State) (op : AccessOp) (vas : List Nat) (ps : List Piece) : Nat :=
  (((vas.zip ps).find? (fun x => meetsLost s op [x.2])).map Prod.fst).getD (vas.headD 0)

/-- R217: the lanes of a gather or scatter, each an access of its own. -/
def lanesAccess (vas : List Nat) (kind : AccessKind) (op : AccessOp) (s : State) (k : Bool → Nat → List Piece → State → Out) : Out :=
  let r := laneXlate s kind vas
  match r.2 with
  | some f => .next (trapAt f.2.2 f.1 f.2.1 s)
  | none =>
    reach r.1 (lostLane s op vas r.1) op s (fun s => k (vas.all (fun a => isHome a 4)) (vas.headD 0) r.1 (vas.foldl (fun s a => touch a s) s))

/-- R216, R219: the strided or gathered load of the enabled lanes from their addresses. -/
def gatherOp (v : Cluster) (d : BitVec 6) (mk : BitVec 64) (L : Nat) (addr : Nat → Nat) (s : State) : Out :=
  let ls := maskLanes mk
  if ls.isEmpty then laneResult v d mk 0 L (List.replicate 64 0) s
  else
    let vas := ls.map addr
    lanesAccess vas .read .load s (fun home va ps s =>
      .next (vectorLoad home va ps v d.toNat mk 0 ls (L + bankLoad vas) s))

/-- R216 -/
def execLdvs (v : Cluster) (d a b : BitVec 6) (m : BitVec 3) (s : State) : Out :=
  checked (.ldvs v d a b m) s (fun s =>
    let base := readS a.toNat s
    let step := readS b.toNat s
    gatherOp v d (readMask v m.toNat s) 5 (fun l => (base + BitVec.ofNat 64 l * step).toNat) s)

/-- R216: a lane's address from a base and a vector of offsets. -/
def offsetAddr (base : W64) (x : VReg) (l : Nat) : Nat := (base + BitVec.ofNat 64 (x.lane l).toNat).toNat

/-- R216 -/
def execGath (v : Cluster) (d a b : BitVec 6) (m : BitVec 3) (s : State) : Out :=
  checked (.gath v d a b m) s (fun s =>
    let x := readV v b.toNat s
    orTrap (notAccepted tagsIndex [(asWritten s b, x.tag)]) s (fun s =>
      gatherOp v d (readMask v m.toNat s) (5 + otherCycle [b.toNat]) (offsetAddr (readS a.toNat s) x) s))

/-- R216, R218: of lanes that write a common byte the highest stands. -/
def execScat (v : Cluster) (d a b : BitVec 6) (m : BitVec 3) (s : State) : Out :=
  checked (.scat v d a b m) s (fun s =>
    let x := readV v b.toNat s
    let y := readV v d.toNat s
    let ls := maskLanes (readMask v m.toNat s)
    let base := readS a.toNat s
    orTrap (notAccepted tagsIndex [(asWritten s b, x.tag)] <|> reservedTag [(asWritten s d, y.tag)]) s (fun s =>
      if ls.isEmpty then emptyWrite base.toNat s
      else lanesAccess (ls.map (offsetAddr base x)) .write (.store (laneBytes y ls)) s (fun home va ps s =>
        .next (vectorStore home va ps (laneBytes y ls) s))))

end Sys2Proof.Machine
end

