-- ==== Sys2Proof/Machine/Matrix.lean ====
section
/-! DEFINITION. Tiles, matrix multiplication and accumulator moves (R221 to R235), dot products (R78 to R80), fidelity (R85 to
R91, R357) and completion (R226, R355). -/

namespace Sys2Proof.Machine

/-! ### Tiles (R221, R222) -/

/-- R221: ROWB. -/
def Tile.rowb (t : Tile) : Nat := fld t.tc.toNat 6 8
/-- R221: FMT. -/
def Tile.fmt (t : Tile) : Nat := fld t.tc.toNat 14 4

/-- R222: element bytes of a block of format tag `f`. -/
def blockBytes (f : Nat) : Nat := 2 * (blockW f + 1)

/-- R222: bytes of an element of a format that is no block format. -/
def elemBytes (f : Nat) : Nat := if f == 12 then 8 else 4 / perLane f

/-- R222: elements of a row of `rb` data bytes in format `f`. -/
def elemsOf (f rb : Nat) : Nat := if isBlock f then 16 * rb / blockBytes f else rb / elemBytes f

/-- R222: Elems. -/
def Tile.elems (t : Tile) : Nat := elemsOf t.fmt t.rowb
/-- R222: nb. -/
def Tile.nb (t : Tile) : Nat := if isBlock t.fmt then t.rowb / blockBytes t.fmt else 0
/-- R222: MROW. -/
def Tile.mrow (t : Tile) : Nat := if isBlock t.fmt then t.nb * (blockBytes t.fmt + 2) else t.rowb
/-- R221: whether a tile is configured. -/
def Tile.configured (t : Tile) : Bool := t.nrows != 0

/-- R222: whether a ROWB is allowed for a format. -/
def rowbOk (f rb : Nat) : Bool :=
  if isBlock f then rb != 0 && rb % blockBytes f == 0 && decide (rb / blockBytes f ≤ blocksOf f)
  else rb != 0 && rb % (if f == 12 then 8 else 4) == 0 && decide (rb ≤ 128)

/-- R221, R352: whether TCFG takes a value. -/
def tcfgOk (v : Nat) : Bool :=
  v == 0 || (v < 2 ^ 18 && 1 ≤ fld v 0 6 && fld v 0 6 ≤ 32 && fld v 14 4 ≤ 12 && rowbOk (fld v 14 4) (fld v 6 8))

/-- R72, R73: a row as one number: data bytes, side bytes above them. -/
def TileRow.image (r : TileRow) : Nat := fromBytes (r.data ++ r.side)

/-- Bytes padded with zeros to n. -/
def padTo (n : Nat) (bs : List Byte) : List Byte := bs.take n ++ List.replicate (n - bs.length) 0

/-- A row of a tile. -/
def Tile.row (t : Tile) (i : Nat) : TileRow := t.rows.getD i TileRow.zero

/-- A tile that an instruction writes with new rows: dirty, WBUSY until a cycle. -/
def Tile.written (rows : List TileRow) (until_ : Nat) (t : Tile) : Tile := { t with rows := rows, dirty := true, wbusy := some until_ }

/-- The later of a busy bit's end and a cycle. -/
def laterOf (b : Option Nat) (c : Nat) : Option Nat := some (max c (b.getD 0))

/-- R225: a tile that is read until a cycle. -/
def Tile.reading (until_ : Nat) (t : Tile) : Tile := { t with rbusy := laterOf t.rbusy until_ }
/-- R225: an accumulator that is read until a cycle. -/
def Acc.reading (until_ : Nat) (a : Acc) : Acc := { a with rbusy := laterOf a.rbusy until_ }
/-- R225: an accumulator that is written until a cycle. -/
def Acc.writing (until_ : Nat) (a : Acc) : Acc := { a with wbusy := some until_, mmaBusy := false }

/-- Update a tile of the active context. -/
def modTile (x : Nat) (f : Tile → Tile) (s : State) : State :=
  modAct (fun c => { c with tiles := c.tiles.set x (f (c.tiles.getD x Tile.zero)) }) s

/-- Update an accumulator of the active context. -/
def modAcc (x : Nat) (f : Acc → Acc) (s : State) : State :=
  modAct (fun c => { c with accs := c.accs.set (x - 8) (f (c.accs.getD (x - 8) Acc.zero)) }) s

/-! ### State causes (R352) -/

/-- R352: 0x47 for a tile that is unconfigured. -/
def unconfigured (s : State) (x : Nat) : Option (BitVec 8 × W64) :=
  if (tileAt s x).configured then none else some (0x47, BitVec.ofNat 64 x)

/-- R344: the detail of 0x49. -/
def fmtFault (s : State) (x : Nat) : BitVec 8 × W64 := (0x49, BitVec.ofNat 64 (x + (tileAt s x).fmt * 16))

/-- R223: KIND as a number. -/
def AccKind.code : AccKind → Nat
  | .float => 0
  | .int => 1
  | .ranked => 2

/-- R344: the detail of 0x4A. -/
def kindFault (s : State) (x : Nat) : BitVec 8 × W64 := (0x4A, BitVec.ofNat 64 (x - 8 + (accAt s x).kind.code * 16))

/-- R352: an accumulator that must be ranked. -/
def notRanked (s : State) (x : Nat) : Option (BitVec 8 × W64) := if (accAt s x).kind == .ranked then none else some (kindFault s x)

/-- R352: an accumulator that must be plain. -/
def notPlain (s : State) (x : Nat) : Option (BitVec 8 × W64) := if (accAt s x).kind == .ranked then some (kindFault s x) else none

/-- A cause that a condition raises. -/
def causeIf (b : Bool) (f : BitVec 8 × W64) : Option (BitVec 8 × W64) := if b then some f else none

/-! ### Configuration, zeroing and masks (R227) -/

/-- R227 -/
def execTcfg (d a : BitVec 6) (s : State) : Out :=
  checked (.tcfg d a) s (fun s =>
    let v := (readS a.toNat s).toNat
    let n := d.toNat - 20
    if !tcfgOk v then .next (trap 0x48 (BitVec.ofNat 64 v) s)
    else if (tileAt s n).tc.toNat == v then .next (modTile n (fun t => { t with wbusy := some (s.core.cycle + 1) }) s)
    else .next (modTile n (fun t => { (t.written Tile.zero.rows (s.core.cycle + 1)) with tc := BitVec.ofNat 18 v }) s))

/-- R227 -/
def execTcfgRd (d a : BitVec 6) (s : State) : Out :=
  checked (.tcfgRd d a) s (fun s => .next (writeS d.toNat (BitVec.ofNat 64 (tileAt s (a.toNat - 20)).tc.toNat) 1 s))

/-- R227 -/
def execTzero (d : BitVec 6) (s : State) : Out :=
  checked (.tzero d) s (fun s =>
    orTrap (unconfigured s d.toNat) s (fun s => .next (modTile d.toNat (Tile.written Tile.zero.rows (s.core.cycle + 2)) s)))

/-- R224, R135: replace the mask that a specifier 12 to 19 names. -/
def setRowMask (x : Nat) (v : W32) (s : State) : State :=
  modAct (fun c => if x < 16 then { c with rwm := c.rwm.set (x - 12) v } else { c with clm := c.clm.set (x - 16) v }) s

/-- R224: the mask that a specifier names. -/
def rowMask (s : State) (x : Nat) : W32 := if x < 16 then s.core.act.rwm.getD (x - 12) 0 else s.core.act.clm.getD (x - 16) 0

/-- R227 -/
def execTmsk (d a : BitVec 6) (s : State) : Out :=
  checked (.tmsk d a) s (fun s => .next (setRowMask d.toNat ((readS a.toNat s).setWidth 32) s))

/-- R227 -/
def execTmskRd (d a : BitVec 6) (s : State) : Out :=
  checked (.tmskRd d a) s (fun s => .next (writeS d.toNat ((rowMask s a.toNat).setWidth 64) 1 s))

/-! ### Tile loads and stores (R228, R229) -/

/-- R228: the memory row of a tile row. -/
def Tile.toMem (t : Tile) (r : TileRow) : List Byte :=
  if isBlock t.fmt then
    (List.range t.nb).flatMap (fun c => (r.side.drop (2 * c)).take 2 ++ (r.data.drop (blockBytes t.fmt * c)).take (blockBytes t.fmt))
  else r.data.take t.rowb

/-- R228: the tile row of a memory row. -/
def Tile.fromMem (t : Tile) (bs : List Byte) : TileRow :=
  if isBlock t.fmt then
    let z := blockBytes t.fmt + 2
    let block (c : Nat) : List Byte := (bs.drop (z * c)).take z
    ⟨padTo 128 ((List.range t.nb).flatMap (fun c => (block c).drop 2)), padTo 32 ((List.range t.nb).flatMap (fun c => (block c).take 2))⟩
  else ⟨padTo 128 (bs.take t.rowb), List.replicate 32 0⟩

/-- R228: the rows of a tile with those listed filled from consecutive memory rows. -/
def Tile.filled (t : Tile) : List Nat → List Byte → List TileRow
  | [], _ => t.rows
  | r :: rs, bs => ({ t with rows := t.rows.set r (t.fromMem (bs.take t.mrow)) } : Tile).filled rs (bs.drop t.mrow)

/-- R228: the units of a memory row: address and bytes of each. -/
def rowUnits (base : Nat) (pitch : Int) (rot mrow r : Nat) : List (Nat × Nat) :=
  (List.range (ceilDiv mrow 16)).map (fun (u : Nat) =>
    (toBits 64 (base + r * pitch + 16 * (u : Int)) ^^^ (r * rot % 32 * 16), min 16 (mrow - 16 * u)))

/-- R228: the units of the rows of a tile access, row by row. -/
def planUnits (base plan mrow : Nat) (rows : List Nat) : List (Nat × Nat) :=
  rows.flatMap (rowUnits base (signExt plan 32) (fld plan 32 5) mrow)

/-- R228, R373: translate each unit; the failure that R342 ranks first, of the first unit that meets it, or the pieces. -/
def unitsXlate (s : State) (kind : AccessKind) (us : List (Nat × Nat)) : List Piece × Option (BitVec 8 × W64 × Nat) :=
  us.foldr (fun u r =>
    match xlate u.1 u.2 kind 1 s with
    | .ok p => (p :: r.1, r.2)
    | .fail e v =>
      match r.2 with
      | none => (r.1, some (e, v, u.1))
      | some f => (r.1, if e ≤ f.1 then some (e, v, u.1) else some f)) ([], none)

/-- The cause with the lower code (R342). -/
def lowerOf (a b : Option (BitVec 8 × W64)) : Option (BitVec 8 × W64) :=
  match a, b with
  | some x, some y => if x.1 ≤ y.1 then some x else some y
  | some x, none => some x
  | none, y => y

/-- R229: the largest number of home-window units that fall in one bank. -/
def unitBanks (us : List (Nat × Nat)) : Nat :=
  let bs := (us.filter (fun u => isHome u.1 u.2)).map (fun u => u.1 / 16 % 32)
  (List.range 32).foldl (fun m b => max m (bs.filter (fun x => x == b)).length) 0

/-- R228, R371, R373: the access of a TLD or TST: the causes of its units and alignment, its waits, and what is done with its
units and pieces. -/
def tileAccess (base plan : Nat) (kind : AccessKind) (t : Tile) (rows : List Nat) (op : AccessOp) (s : State)
    (k : List (Nat × Nat) → List Piece → State → Out) : Out :=
  let us := planUnits base plan t.mrow rows
  let r := unitsXlate s kind us
  let mis := causeIf (base % 16 != 0 || fld plan 0 4 != 0) (0x67, BitVec.ofNat 64 base)
  match lowerOf (r.2.map (fun f => (f.1, f.2.1))) mis with
  | some f => .next (trapAt ((r.2.map (fun f => f.2.2)).getD 0) f.1 f.2 s)
  | none => reach r.1 base op s (fun s => k us r.1 (us.foldl (fun s u => touch u.1 s) s))

/-- R228, R229 -/
def execTld (d a b : BitVec 6) (n : BitVec 2) (s : State) : Out :=
  checked (.tld d a b n) s (fun s =>
    let t := tileAt s d.toNat
    let rows := activeRows s d.toNat n.toNat
    orTrap (unconfigured s d.toNat) s (fun s =>
      tileAccess (readS a.toNat s).toNat (readS b.toNat s).toNat .read t rows .load s (fun us ps s =>
        let home := us.all (fun u => isHome u.1 u.2)
        let until_ := s.core.cycle + 4 + unitBanks us
        let acc := mkAccess s s.core.slot.xb.toNat false false (readS a.toNat s).toNat ps .load (.tile d.toNat rows)
          (answerUnits s home 0 ps)
        let s := modTile d.toNat (fun t => { t with dirty := true, wbusy := some until_ }) s
        if us.isEmpty then .next s
        else if home then
          match homeAccess acc s with
          | (some e, s) => .next (modTile d.toNat (fun t => { t with rows := t.filled rows e.data }) s)
          | (none, s) => .next (modTile d.toNat (fun t => { t with wait := some acc.id }) s)
        else .next (modTile d.toNat (fun t => { t with wait := some acc.id }) (sendAccess acc s)))))

/-- R228, R229: the bytes perform when RBUSY has ended; a TST of no rows is an empty write (R372). DESIGN CHOICE (log 26): units that share bytes are written in row-major
order, where R229 leaves the pieces unordered. -/
def execTst (d a b : BitVec 6) (n : BitVec 2) (s : State) : Out :=
  checked (.tst d a b n) s (fun s =>
    let t := tileAt s d.toNat
    let rows := activeRows s d.toNat n.toNat
    let op : AccessOp := .store (rows.flatMap (fun r => t.toMem (t.row r)))
    orTrap (unconfigured s d.toNat) s (fun s =>
      if (planUnits (readS a.toNat s).toNat (readS b.toNat s).toNat t.mrow rows).isEmpty then
        emptyWrite (readS a.toNat s).toNat (modTile d.toNat (Tile.reading (s.core.cycle + 4)) s)
      else
      tileAccess (readS a.toNat s).toNat (readS b.toNat s).toNat .write t rows op s (fun us ps s =>
        let home := us.all (fun u => isHome u.1 u.2)
        let cy := 4 + unitBanks us
        let acc := mkAccess s s.core.slot.xb.toNat false false (readS a.toNat s).toNat ps op .none (answerUnits s home 1 ps)
        let s := modTile d.toNat (Tile.reading (s.core.cycle + cy)) s
        let go := s.core.time + cy * s.core.unit
        if home then .next (atTime go (.accessPerform acc.id) { s with accesses := s.accesses ++ [acc], nextId := s.nextId + 1 })
        else .next (sendFrom go acc s))))

/-! ### Row and column moves (R230) -/

/-- The 256 bytes of a vector register (R72). -/
def VReg.bytes (v : VReg) : List Byte := v.lanes.flatMap (fun l => toBytes 4 l.toNat)

/-- The lanes that bytes fill from lane 0; the others zero. -/
def lanesOfBytes (bs : List Byte) : List W32 := (List.range 64).map (fun l => BitVec.ofNat 32 (leAt bs (4 * l) 4))

/-- R230: the source tag of TRWR and TCWR. -/
def tileTag (a : BitVec 6) (x : VReg) (t : Tile) : Option (BitVec 8 × W64) :=
  causeIf (x.tag != t.fmt && x.tag != 0) (0x20, specTag a.toNat x.tag)

/-- R230 -/
def execTrwr (d a b : BitVec 6) (s : State) : Out :=
  checked (.trwr d a b) s (fun s =>
    let t := tileAt s d.toNat
    let x := readV .va a.toNat s
    let r := (readS b.toNat s).toNat
    orTrap (tileTag a x t <|> unconfigured s d.toNat <|> causeIf (t.nrows ≤ r) (0x4B, BitVec.ofNat 64 r)) s (fun s =>
      let row : TileRow := ⟨padTo 128 (x.bytes.take t.rowb), padTo 32 ((x.bytes.drop 128).take (2 * t.nb))⟩
      .next (modTile d.toNat (Tile.written (t.rows.set r row) (s.core.cycle + 2)) s)))

/-- R230 -/
def execTrrd (d a b : BitVec 6) (s : State) : Out :=
  checked (.trrd d a b) s (fun s =>
    let t := tileAt s a.toNat
    let r := (readS b.toNat s).toNat
    orTrap (unconfigured s a.toNat <|> causeIf (t.nrows ≤ r) (0x4B, BitVec.ofNat 64 r)) s (fun s =>
      let s := modTile a.toNat (Tile.reading (s.core.cycle + 3)) s
      .next (writeV .va d.toNat (BitVec.allOnes 64) ⟨lanesOfBytes ((t.row r).data ++ (t.row r).side), t.fmt⟩ 3 s)))

/-- R230: the causes of a column move. -/
def columnFault (s : State) (x c : Nat) : Option (BitVec 8 × W64) :=
  unconfigured s x <|> causeIf (isBlock (tileAt s x).fmt) (fmtFault s x) <|>
    causeIf ((tileAt s x).elems ≤ c) (0x4B, BitVec.ofNat 64 c)

/-- R230 -/
def execTcwr (d a b : BitVec 6) (s : State) : Out :=
  checked (.tcwr d a b) s (fun s =>
    let t := tileAt s d.toNat
    let x := readV .va a.toNat s
    let c := (readS b.toNat s).toNat
    let z := elemBytes t.fmt
    orTrap (tileTag a x t <|> columnFault s d.toNat c) s (fun s =>
      let put (r : Nat) : TileRow :=
        let w := t.row r
        if r < t.nrows then { w with data := splice w.data (z * c) ((x.bytes.drop (z * r)).take z) } else w
      .next (modTile d.toNat (Tile.written ((List.range 32).map put) (s.core.cycle + 2)) s)))

/-- R230 -/
def execTcrd (d a b : BitVec 6) (s : State) : Out :=
  checked (.tcrd d a b) s (fun s =>
    let t := tileAt s a.toNat
    let c := (readS b.toNat s).toNat
    let z := elemBytes t.fmt
    orTrap (columnFault s a.toNat c) s (fun s =>
      let bs := (List.range t.nrows).flatMap (fun r => ((t.row r).data.drop (z * c)).take z)
      let s := modTile a.toNat (Tile.reading (s.core.cycle + 4)) s
      .next (writeV .va d.toNat (BitVec.allOnes 64) ⟨lanesOfBytes bs, t.fmt⟩ 4 s)))

/-! ### Wrong terms (R85, R86, R88) -/

/-- R85: G(F): the positions that may be wrong at a level. -/
def wrongBits (lv : Nat) : Nat :=
  match lv with
  | 1 => 12
  | 2 => 18
  | 3 => 22
  | _ => 0

/-- R85, R86, R88: what wrong terms add to a group sum at a level, in grid units, and whether a checker detects it. Integer
sums have no low slice. Nothing outside the bound of R86 is added. -/
def wrongTerms (lv : Nat) (int : Bool) (use : Nat) : Int × Bool :=
  let lo := if lv == 0 || int then 0 else Config.wrongLow use
  let mid := if lv < 2 then 0 else Config.wrongMid use
  let hi := if lv < 3 then 0 else Config.wrongHigh use
  let e := lo + 4096 * mid + 262144 * hi
  if e.natAbs < 2 ^ wrongBits lv then (e, lo % 3 != 0 || mid % 3 != 0 || hi % 3 != 0) else (0, false)

/-! ### Dot products (R78 to R80) -/

/-- A dot product so far: the accumulator word, the flags, the numbers of the groups that met a detection, and whether a group sum has
been formed in the grid, which the checkers see (R88). -/
structure Dot where
  word : Nat
  flags : Nat
  dets : List Nat
  seen : Bool
  deriving DecidableEq, Repr

/-- Groups of 16 consecutive terms, `n` of them (R78). -/
def groupsOf {α : Type} : Nat → List α → List (List α)
  | 0, _ => []
  | n + 1, l => l.take 16 :: groupsOf n (l.drop 16)

/-- R78: the flags that the matrix unit sets. -/
def matrixFlags (fl : Nat) : Nat := fl &&& (flNV + flOF + flNX)

/-- R78: the nonzero finite terms of a group. -/
def nonzeroTerms (ps : List (Option Num)) : List (Bool × Nat × Int) :=
  ps.filterMap (fun p =>
    match p with
    | some (.fin n m e) => if m == 0 then none else some (n, m, e)
    | _ => none)

/-- R78: the largest exponent of nonzero terms. -/
def topExp : List (Bool × Nat × Int) → Int
  | [] => 0
  | [t] => Num.exp t.2.1 t.2.2
  | t :: r => max (Num.exp t.2.1 t.2.2) (topExp r)

/-- R78: a term truncated to grid units 2^q. -/
def gridTerm (q : Int) (t : Bool × Nat × Int) : Int :=
  let k : Int := if q ≤ t.2.2 then t.2.1 * 2 ^ (t.2.2 - q).toNat else t.2.1 / 2 ^ (q - t.2.2).toNat
  if t.1 then -k else k

/-- R78, R86: a group sum with its flags and whether it was formed in the grid; `err` is what wrong terms add. A term `none`
is an invalid product. -/
def groupSum (err : Int) (ps : List (Option Num)) : Nat × Nat × Bool :=
  let invalid := ps.any Option.isNone
  let xs := ps.filterMap id
  let nans := xs.any Num.isNan
  let pos := xs.any (fun x => x == .inf false)
  let neg := xs.any (fun x => x == .inf true)
  if invalid || nans || (pos && neg) then
    (fp32.nan, if invalid || xs.any Num.isSnan || !nans then flNV else 0, false)
  else if pos || neg then (fp32.inf neg, 0, false)
  else
    match nonzeroTerms ps with
    | [] => (fp32.signBit (xs.all Num.isNeg), 0, false)
    | nz =>
      let q := topExp nz - 30
      let r := fp32.roundInt ((nz.map (gridTerm q)).sum + err) q
      (r.1, r.2, true)

/-- R78: one group added to a floating accumulator word; `g` numbers the group and `use` the free value. -/
def addGroupF (lv use : Nat) (d : Dot) (g : Nat) (ps : List (Option Num)) : Dot :=
  let w := wrongTerms lv false use
  let s := groupSum w.1 ps
  let r := fp32.addNum (fp32.decode d.word) (fp32.decode s.1)
  ⟨r.1, d.flags ||| matrixFlags (s.2.1 ||| r.2), if s.2.2 && w.2 then d.dets ++ [g] else d.dets, d.seen || s.2.2⟩

/-- R79, R86: one group added to an integer accumulator word. -/
def addGroupI (lv use : Nat) (d : Dot) (g : Nat) (ps : List Int) : Dot :=
  let w := wrongTerms lv true use
  let v := satS 32 (signExt d.word 32 + ps.sum + w.1 / 4096)
  ⟨toBits 32 v, d.flags, if w.2 then d.dets ++ [g] else d.dets, true⟩

/-- R78: the groups of a dot product in ascending order; `g` numbers the first. -/
def addGroups {α : Type} (f : Nat → Dot → Nat → α → Dot) (use g : Nat) (d : Dot) : List α → Dot
  | [] => d
  | x :: r => addGroups f use (g + 1) (f (use + g) d g x) r

/-- R72, R73: element `e` of a row image of a floating or block format. -/
def elemNum (f img e : Nat) : Num :=
  if isBlock f then imageElem f img e
  else (fmtOfTag f).decode (fld img (elemBits (perLane f) * e) (elemBits (perLane f)))

/-- Element `e` of a row image of I8. -/
def elemInt (img e : Nat) : Int := signExt (fld img (8 * e) 8) 8

/-- The negative of a product. -/
def negTerm (p : Option Num) : Option Num := p.map Num.negate

/-- R80: the terms of a real (`im` false) or imaginary sum over n complex pairs. -/
def complexTerms {α β : Type} (mul : α → α → β) (neg : β → β) (n : Nat) (im : Bool) (f g : Nat → α) : List β :=
  (List.range n).flatMap (fun c =>
    if im then [mul (f (2 * c)) (g (2 * c + 1)), mul (f (2 * c + 1)) (g (2 * c))]
    else [mul (f (2 * c)) (g (2 * c)), neg (mul (f (2 * c + 1)) (g (2 * c + 1)))])

/-- R231, R232: what an MMA-class instruction computes with: whether complex, the format, the elements or complex pairs of a
row, and the group sums of a word. -/
structure MmaShape where
  complex : Bool
  fa : Nat
  fb : Nat
  count : Nat
  groups : Nat
  deriving DecidableEq, Repr

/-- R232: the word that row images `x` and `y` give for column `j`, from `z`; its groups are numbered from `g`. -/
def MmaShape.dot (m : MmaShape) (lv use g z x y j : Nat) : Dot :=
  let im := j % 2 == 1
  if m.fa == 9 then
    let f := elemInt x
    let h := elemInt y
    let ts := if m.complex then complexTerms (fun a b => a * b) (fun a => -a) m.count im f h
      else (List.range m.count).map (fun k => f k * h k)
    addGroups (addGroupI lv) use g ⟨z, 0, [], false⟩ (groupsOf m.groups ts)
  else
    let f := elemNum m.fa x
    let h := elemNum m.fb y
    let ts := if m.complex then complexTerms mulNum negTerm m.count im f h
      else (List.range m.count).map (fun k => mulNum (f k) (h k))
    addGroups (addGroupF lv) use g ⟨z, 0, [], false⟩ (groupsOf m.groups ts)

/-! ### MMA, MMAC and MMAB (R231 to R234) -/

/-- R231: whether a format pair is in the table, and whether it needs an integer accumulator. -/
def pairKind (complex : Bool) (fa fb : Nat) : Option Bool :=
  if fa == 9 && fb == 9 then some true
  else if complex then (if fa == fb && (fa == 2 || fa == 3 || fa == 12) then some false else none)
  else if (fa == 4 || fa == 5) && (fb == 4 || fb == 5) then some false
  else if fa == fb && [1, 2, 3, 6, 7, 8].contains fa then some false
  else none

/-- R231: whether an accumulator has the kind that a pair needs. -/
def kindOk (complex int : Bool) (a : Acc) : Bool :=
  match a.kind with
  | .float => !int
  | .int => int
  | .ranked => !complex && a.vt == int

/-- R233: occupancy. -/
def occupancy (complex : Bool) (f elems : Nat) : Nat :=
  let n := if complex then 2 * elems else elems
  match f with
  | 1 => n
  | 2 | 3 => ceilDiv n 4
  | 4 | 5 | 6 | 9 => ceilDiv n 8
  | 7 => ceilDiv n 16
  | 8 => ceilDiv n 32
  | _ => 4 * elems

/-- R224: the columns that are active, for mask pair `n` and tile `b`. -/
def activeCols (s : State) (complex : Bool) (b n : Nat) : List Nat :=
  (List.range 32).filter (fun j => bit (maskPair s n).2 j && decide ((if complex then j / 2 else j) < (tileAt s b).nrows))

/-- R349: the first block with shared exponent 0xFF in rows of a tile. -/
def badRowBlock (s : State) (x : Nat) (rows : List Nat) : Option (BitVec 8 × W64) :=
  let t := tileAt s x
  (rows.findSome? (fun r => badBlock (t.row r).image (List.range t.nb))).map (fun b => (0x45, specTag x b))

/-- R352: the causes 0x47, 0x49 and 0x4A of an MMA-class instruction. -/
def mmaState (s : State) (complex : Bool) (d a b : Nat) : Option (BitVec 8 × W64) :=
  let ta := tileAt s a
  let tb := tileAt s b
  unconfigured s a <|> unconfigured s b <|>
    match pairKind complex ta.fmt tb.fmt with
    | none => some (fmtFault s a)
    | some int =>
      if ta.elems != tb.elems || (complex && ta.fmt != 12 && ta.elems % 2 != 0) then some (fmtFault s a)
      else causeIf (!kindOk complex int (accAt s d)) (kindFault s d)

/-- R349: the cause 0x45 of an MMA-class instruction: the blocks in the rows it reads. -/
def mmaBlocks (s : State) (complex : Bool) (a b n : Nat) : Option (BitVec 8 × W64) :=
  badRowBlock s a (activeRows s a n) <|>
    badRowBlock s b ((activeCols s complex b n).map (fun j => if complex then j / 2 else j)).eraseDups

/-- The words of an accumulator with one replaced. -/
def Acc.setWord (i j : Nat) (v : Nat) (a : Acc) : Acc :=
  { a with words := a.words.set i ((a.words.getD i []).set j (BitVec.ofNat 32 v)) }

/-- The word of an accumulator. -/
def Acc.word (a : Acc) (i j : Nat) : Nat := ((a.words.getD i []).getD j 0).toNat

/-- An MMA-class instruction so far: the accumulator, the flags, the detections, the words formed, and whether the checkers have seen a
group sum. -/
structure MmaRun where
  acc : Acc
  flags : Nat
  dets : List Nat
  cells : Nat
  seen : Bool
  deriving DecidableEq, Repr

/-- R232: one active word. -/
def MmaShape.cell (m : MmaShape) (s : State) (lv a b base : Nat) (r : MmaRun) (ij : Nat × Nat) : MmaRun :=
  let i := ij.1
  let j := ij.2
  let ranked := r.acc.kind == .ranked
  let x := ((tileAt s a).row i).image
  let y := ((tileAt s b).row (if m.complex then j / 2 else j)).image
  let d := m.dot lv s.free (r.cells * m.groups) (if ranked then 0 else r.acc.word i j) x y j
  ⟨if ranked then r.acc.offer i d.word ((base + j) % 2 ^ 32) else r.acc.setWord i j d.word, r.flags ||| d.flags, r.dets ++ d.dets, r.cells + 1, r.seen || d.seen⟩

/-- R231, R232: the shape of an MMA-class instruction on two tiles. -/
def mmaShape (complex : Bool) (ta tb : Tile) : MmaShape :=
  let n := if complex && ta.fmt != 12 then ta.elems / 2 else ta.elems
  ⟨complex, ta.fmt, tb.fmt, n, ceilDiv (if complex then 2 * n else n) 16⟩

/-- R86, R88: the slice in which a fault of the array gives a detection at F0, where the checkers have seen a group sum; an I8 sum has no low
slice. -/
def faultSlice (use : Nat) (seen int : Bool) : Option Nat :=
  if seen then (Config.faultAtF0 use).map (fun x => if int then 1 + x % 2 else x % 3) else none

/-- R232, R233: an MMA-class instruction executes. Its words stand at once, behind WBUSY; its flags, its counts and a fault at
F0 wait for its completion. -/
def runMma (complex : Bool) (d a b n : Nat) (s : State) : State :=
  let m := mmaShape complex (tileAt s a) (tileAt s b)
  let lv := levelOf s s.lcn
  let cells := (activeRows s a n).flatMap (fun i => (activeCols s complex b n).map (fun j => (i, j)))
  let base := fld (readS s.core.slot.xb.toNat s).toNat 0 32
  let r := cells.foldl (m.cell s lv a b base) ⟨accAt s d, 0, [], 0, false⟩
  let o := occupancy complex m.fa (tileAt s a).elems
  let done := s.core.cycle + o + (if (accAt s d).kind == .ranked then 26 else 10)
  let f0 := if lv == 0 then faultSlice s.free r.seen (m.fa == 9) else none
  let c := s.core.act
  let cm : Completion := ⟨s.nextId, some done, BitVec.ofNat 5 r.flags, BitVec.ofNat 5 c.fen, BitVec.ofNat 18 c.here, 3, c.order, lv,
    r.cells * m.groups, r.dets, f0⟩
  let s := modAcc d (fun _ => { r.acc with wbusy := laterOf r.acc.wbusy done, mmaBusy := true }) s
  let s := modTile b (Tile.reading (s.core.cycle + o)) (modTile a (Tile.reading (s.core.cycle + o)) s)
  let s := modAct (fun c => { c with completions := c.completions ++ [cm] }) s
  let s := modCore (fun k => { k with arrayFree := s.core.cycle + o }) s
  { s with nextId := s.nextId + 1, free := s.free + max 1 (r.cells * m.groups) }

/-- R90, R91, R357: an MMA-class instruction at a level at which the rails do not stand makes them move, and stalls. -/
def onRails (s : State) (k : State → Out) : Out :=
  if levelOf s s.lcn != s.core.rail then .next (stall (settleRails s.lcn s.core.time s)) else k s

/-- R232 -/
def execMma (d a b : BitVec 6) (n : BitVec 2) (s : State) : Out :=
  checked (.mma d a b n) s (fun s =>
    orTrap (lowerOf (mmaState s false d.toNat a.toNat b.toNat) (mmaBlocks s false a.toNat b.toNat n.toNat)) s (fun s =>
      onRails s (fun s => .next (runMma false d.toNat a.toNat b.toNat n.toNat s))))

/-- R232 -/
def execMmac (d a b : BitVec 6) (n : BitVec 2) (s : State) : Out :=
  checked (.mmac d a b n) s (fun s =>
    orTrap (lowerOf (mmaState s true d.toNat a.toNat b.toNat) (mmaBlocks s true a.toNat b.toNat n.toNat)) s (fun s =>
      onRails s (fun s => .next (runMma true d.toNat a.toNat b.toNat n.toNat s))))

/-- R90, R234 -/
def execMmab (d a b : BitVec 6) (n : BitVec 2) (s : State) : Out :=
  checked (.mmab d a b n) s (fun s =>
    orTrap (mmaState s false d.toNat a.toNat b.toNat) s (fun s =>
      if skips s d.toNat a.toNat n.toNat then onRails s (fun s => .next (modAct (fun c => { c with mskip := c.mskip + 1 }) s))
      else
        orTrap (mmaBlocks s false a.toNat b.toNat n.toNat) s (fun s =>
          onRails s (fun s => .next (runMma false d.toNat a.toNat b.toNat n.toNat s)))))

/-! ### Completion (R89, R226, R355, R357) -/

/-- R357: group sums with a detection that a window allows. -/
def windowLimit (lv : Nat) : Nat :=
  match lv with
  | 1 => 4
  | 2 => 64
  | _ => 4096

/-- R357: whether `k` more detections pass the limit of a window that began at `w`. -/
def passes (lv w det k : Nat) : Bool := decide (det - w ≤ windowLimit lv) && decide (windowLimit lv < det + k - w)

/-- R357: the limit of a level is passed on core `n`. -/
def tripLevel (n lv : Nat) (s : State) : State :=
  let r := regRaw s (mflim n)
  let s := setReg (mflim n) (putFld (putFld r (1 + lv) 1 1) 0 2 (min (fld r 0 2) (lv - 1))) s
  settleRails n s.time (record { area := 1, cause := 0x4D, cid := some (cidOf n), tval := lv } s)

/-- R89: the counts of cycle `cy`, with `k` more groups and `e` more detections at a level. -/
def Core.counting (cy lv k e : Nat) (d : Core) : Core :=
  let l := if d.countCycle == cy then d.countThen else List.replicate 3 (0, 0)
  let x := l.getD (lv - 1) (0, 0)
  { d with countCycle := cy, countThen := l.set (lv - 1) (x.1 + k, x.2 + e) }

/-- R89, R357: count the group sums and detections of a matrix instruction on core `n`, in cycle `cy`. -/
def countGroups (n cy lv groups : Nat) (dets : List Nat) (s : State) : State :=
  if lv == 0 || groups == 0 then s
  else
    let d := coreAt s n
    let old := (d.mgrp.getD (lv - 1) 0).toNat
    let m := d.merr.getD (lv - 1) (0, false)
    let w := d.windowDet.getD (lv - 1) 0
    let edge := (old / 2 ^ 24 + 1) * 2 ^ 24
    let before := (dets.filter (fun g => old + g < edge)).length
    let after := dets.length - before
    let m1 := addDets before m
    let crossed := decide (edge ≤ old + groups)
    let w' := if crossed then m1.1.toNat else w
    let trip := passes lv w m.1.toNat before || (crossed && passes lv w' m1.1.toNat after)
    let s := setCore s n { d.counting cy lv groups dets.length with
      mgrp := d.mgrp.set (lv - 1) (BitVec.ofNat 64 (old + groups))
      merr := d.merr.set (lv - 1) (addDets after m1)
      windowDet := d.windowDet.set (lv - 1) w' }
    if trip then tripLevel n lv s else s

/-- R226, R355: what a completion does in its context. -/
def Context.complete (m : Completion) (c : Context) : Context :=
  let cy := m.due.getD 0
  let c := { (c.setFlags m.flags.toNat) with
    completions := c.completions.filter (fun x => x.mid != m.mid)
    flagCycle := cy
    flagsThen := if c.flagCycle == cy then c.flagsThen ||| m.flags else m.flags }
  let c := if (m.flags &&& m.fen) == 0 then c
    else c.defer ⟨0x46, BitVec.ofNat 64 (m.pc.toNat + m.flags.toNat * 2 ^ 18), m.order, 0⟩
  match m.f0 with
  | none => c
  | some x => c.defer ⟨0x4E, BitVec.ofNat 64 x, m.order, 0⟩

/-! ### Accumulator moves and conversion (R235) -/

/-- R235: every word zero, of a plain kind. -/
def clearAcc (k : AccKind) (cy : Nat) (_ : Acc) : Acc := ({ Acc.zero with kind := k } : Acc).writing cy

/-- R235 -/
def execAczF (d : BitVec 6) (s : State) : Out :=
  checked (.aczF d) s (fun s => .next (modAcc d.toNat (clearAcc .float (s.core.cycle + 2)) s))

/-- R235 -/
def execAczI (d : BitVec 6) (s : State) : Out :=
  checked (.aczI d) s (fun s => .next (modAcc d.toNat (clearAcc .int (s.core.cycle + 2)) s))

/-- R235: the tag of the words of an accumulator. -/
def AccKind.tag : AccKind → Nat
  | .float => 1
  | .int => 11
  | .ranked => 0

/-- R235 -/
def execAcrd (d a b : BitVec 6) (s : State) : Out :=
  checked (.acrd d a b) s (fun s =>
    let h := (readS b.toNat s).toNat
    let c := accAt s a.toNat
    orTrap (causeIf (16 ≤ h) (0x4B, BitVec.ofNat 64 h)) s (fun s =>
      let ls := c.words.getD (2 * h) [] ++ c.words.getD (2 * h + 1) []
      .next (writeV .va d.toNat (BitVec.allOnes 64) ⟨ls, c.kind.tag⟩ 4 (modAcc a.toNat (Acc.reading (s.core.cycle + 4)) s))))

/-- R235 -/
def execAcwr (d a b : BitVec 6) (s : State) : Out :=
  checked (.acwr d a b) s (fun s =>
    let h := (readS b.toNat s).toNat
    let c := accAt s d.toNat
    let x := readV .va a.toNat s
    let tagBad := match c.kind with
      | .float => x.tag != 1 && x.tag != 0
      | .int => x.tag != 11 && x.tag != 0
      | .ranked => x.tag != 1 && x.tag != 11 && x.tag != 0
    orTrap (causeIf tagBad (0x20, specTag a.toNat x.tag) <|> notPlain s d.toNat <|> causeIf (16 ≤ h) (0x4B, BitVec.ofNat 64 h)) s (fun s =>
      let ws := (c.words.set (2 * h) (x.lanes.take 32)).set (2 * h + 1) (x.lanes.drop 32)
      .next (modAcc d.toNat (fun c => { (c.writing (s.core.cycle + 2)) with words := ws }) s)))

/-- R235: the words of an accumulator row as FP32 values, for a block; an integer word is converted by R77. -/
def blockWord (c : Acc) (n i j : Nat) (on : Bool) : Num × Nat :=
  if !on || 32 ≤ n + j then (.fin false 0 0, 0)
  else if c.kind == .int then
    let r := fp32.ofInt false (signExt (c.word i (n + j)) 32)
    (fp32.decode r.1, r.2)
  else (fp32.decode (c.word i (n + j)), 0)

/-- R235: block `b` of tile row `i` from an accumulator, with its flags; a block with no active word keeps its bytes. -/
def cvtBlock (c : Acc) (cm : Nat) (f i : Nat) (r : TileRow × Nat) (b : Nat) : TileRow × Nat :=
  if !(List.range 16).any (fun j => 16 * b + j < 32 && bit cm (16 * b + j)) then r
  else
    let xs := (List.range 16).map (fun j => blockWord c (16 * b) i j (bit cm (16 * b + j)))
    let q := quantBlock (blockW f) 127 (xs.map Prod.fst)
    let z := blockBytes f
    (⟨splice r.1.data (z * b) (toBytes z q.2.2.1), splice r.1.side (2 * b) (toBytes 1 q.1 ++ toBytes 1 q.2.1)⟩,
      r.2 ||| xs.foldl (fun m p => m ||| p.2) 0 ||| q.2.2.2.foldl (fun a b => a ||| b) 0)

/-- R77, R235: a word of an accumulator as an element of a tile. The saturating option holds in FP32 too, which is a FLOAT accumulator's own
format. -/
def cvtOut (tag f : Nat) (trunc sat : Bool) (x : Nat) : Nat × Nat :=
  if sat && f < 9 && tag == f then (fmtOfTag f).convert true ((fmtOfTag f).decode x) else cvtElem tag f trunc sat x

/-- R235: element `j` of tile row `i` from an accumulator. -/
def cvtWord (c : Acc) (f : Nat) (trunc sat : Bool) (i : Nat) (r : TileRow × Nat) (j : Nat) : TileRow × Nat :=
  let v := cvtOut c.kind.tag f trunc sat (c.word i j)
  ({ r.1 with data := splice r.1.data (elemBytes f * j) (toBytes (elemBytes f) v.1) }, r.2 ||| v.2)

/-- R235: row `i` of a tile after ACCVT. -/
def cvtRow (c : Acc) (t : Tile) (cm : Nat) (trunc sat : Bool) (i : Nat) : TileRow × Nat :=
  if isBlock t.fmt then (List.range (min t.nb 2)).foldl (cvtBlock c cm t.fmt i) (t.row i, 0)
  else ((List.range (min t.elems 32)).filter (fun j => bit cm j)).foldl (cvtWord c t.fmt trunc sat i) (t.row i, 0)

/-- R235 -/
def execAccvt (d a : BitVec 6) (n : BitVec 2) (s : State) : Out :=
  checked (.accvt d a n) s (fun s =>
    let t := tileAt s d.toNat
    let c := accAt s a.toNat
    let mp := maskPair s n.toNat
    let xb := s.core.slot.xb.toNat
    orTrap (unconfigured s d.toNat <|> causeIf (t.fmt == 0 || t.fmt == 12) (fmtFault s d.toNat) <|> notPlain s a.toNat) s (fun s =>
      let rs := (List.range 32).map (fun i =>
        if i < t.nrows && bit mp.1 i then cvtRow c t mp.2 (bit xb 0) (bit xb 1) i else (t.row i, 0))
      let k := s.core.act
      let done := s.core.cycle + 12
      let cm : Completion := ⟨s.nextId, some done, BitVec.ofNat 5 (rs.foldl (fun m p => m ||| p.2) 0), BitVec.ofNat 5 k.fen, BitVec.ofNat 18 k.here, 3, k.order, 0,
        0, [], none⟩
      let s := modTile d.toNat (Tile.written (rs.map Prod.fst) done) (modAcc a.toNat (Acc.reading (s.core.cycle + 8)) s)
      .next { (modAct (fun c => { c with completions := c.completions ++ [cm] }) s) with nextId := s.nextId + 1 }))

end Sys2Proof.Machine
end

