-- ==== Sys2Proof/Machine/Banks.lean ====
section
/-! DEFINITION. Context banks: the preload and the entry state (R36, R53, R54), the swap (R55, R56), the spill (R57, R58). -/

namespace Sys2Proof.Machine

/-! ### Reading for the preload (R53, R101) -/

/-- R26, R375, R379, R382: bytes that a kiosk reads for core `n` through a task's ASID, or the cause with which the read fails. A read of
another package, or of a unit in motion, is waited for. -/
def fetchVia (s : State) (n : Nat) (c : Context) (va len al : Nat) : Fetch :=
  match rangesFail s (asidEntry s c.asid), translate s n c va len .read al with
  | some f, _ => .fails (BitVec.ofNat 8 f.1) (BitVec.ofNat 64 f.2)
  | none, .fail e v => .fails e v
  | none, .ok p =>
    if pkgOf p.pa != pkgId s then fetchAway c.tid n va c.asid [p] (fun _ => .load) (.preload n) s
    else if inMotion s (localOf p.pa) len then .waits (inTicks 1 (.preload n) s)
    else
      match memStop s .load [p] va with
      | some f => .fails f.1 f.2
      | none => .bytes (readLocal s p.key (localOf p.pa) len) s

/-- R36: a preload list from its 128 bytes. -/
def parseList (b : List Byte) : PreloadList :=
  { psrc := BitVec.ofNat 64 (leAt b 0 8), pdst := leAt b 8 2, plen := leAt b 0xA 2, cslen := leAt b 0xC 2
    csrc := BitVec.ofNat 64 (leAt b 0x10 8), fplo := leAt b 0x18 4, fphi := leAt b 0x1C 4
    ranges := (List.range (leAt b 0xE 1)).map (fun i =>
      (BitVec.ofNat 64 (leAt b (0x20 + 16 * i) 8), leAt b (0x28 + 16 * i) 4, leAt b (0x2C + 16 * i) 4)) }

/-- R36, R348: the limits of range `i` of a preload list, with the offset of the field that breaks each. -/
def rangeDefects (b : List Byte) (i : Nat) : List (Nat × Bool) :=
  let src := leAt b (0x20 + 16 * i) 8
  let dst := leAt b (0x28 + 16 * i) 4
  let len := leAt b (0x2C + 16 * i) 4
  [(0x20 + 16 * i, src % 16 != 0), (0x28 + 16 * i, dst % 16 != 0 || decide (dst < leAt b 0x18 4)),
   (0x2C + 16 * i, len % 16 != 0 || decide (leAt b 0x1C 4 < dst + len))]

/-- R36, R348: the limits of a preload list with the offset of the field that breaks each, ascending. -/
def listDefects (b : List Byte) : List (Nat × Bool) :=
  let l := parseList b
  let nsr := leAt b 0xE 1
  [(0x00, leAt b 0 8 % 16 != 0), (0x08, decide (16383 < l.pdst)), (0x0A, decide (16384 < l.pdst + l.plen)),
   (0x0C, decide (2048 < l.cslen)), (0x0E, decide (4 < nsr)), (0x0F, leAt b 0xF 1 != 0), (0x10, leAt b 0x10 8 % 16 != 0),
   (0x18, l.fplo % 16 != 0), (0x1C, l.fphi % 16 != 0 || decide (0x400000 < l.fphi) || decide (l.fphi < l.fplo))] ++
    (List.range (min nsr 4)).flatMap (rangeDefects b) ++ (List.range 32).map (fun i => (0x60 + i, leAt b (0x60 + i) 1 != 0))

/-- R348: the offset reported for an invalid preload list. -/
def listBad (b : List Byte) : Option Nat := ((listDefects b).find? Prod.snd).map Prod.fst

/-! ### Entry (R54, R84, R166, R341) -/

/-- R54: the entry state of a task dispatched by kiosk `q`. -/
def entryContext (s : State) (q : Nat) (t : Task) : Context :=
  let a (i : Nat) : W64 := t.desc.args.getD i 0
  let l := t.plist
  { Context.reset with
    task := some t
    sreg := [0, a 0, a 1, a 2, a 3] ++ List.replicate 11 0
    ma := BitVec.allOnes 64 :: List.replicate 7 0
    mb := BitVec.allOnes 64 :: List.replicate 7 0
    stw := BitVec.ofNat 64 (t.desc.fid * 8 + 6 * 32)
    pc := t.desc.pc
    tvec := BitVec.ofNat 64 (regRaw s (0x1000070 + q * 0x1000))
    ssp := BitVec.ofNat 64 l.fphi
    sstop := BitVec.ofNat 64 l.fphi
    sslim := BitVec.ofNat 64 (max l.fplo (l.fphi - 0x10000)) }

/-- R44: the device physical address of save slot `i` of quad `q`. -/
def slotBase (s : State) (q i : Nat) : Nat := fld (regRaw s (0x1000050 + q * 0x1000)) 16 40 * 0x10000 + i * 4325376

/-- R344: whether the save slot of a task fails its check at restore: its bytes hold uncorrectable data. -/
def slotFails (s : State) (t : Task) : Option Nat :=
  match t.slot with
  | none => none
  | some (q, i) =>
    let a := slotBase s q i
    if pkgOf a == pkgId s && spanBad s (localOf a) 4325376 then some i else none

/-- R26, R284: `n` bytes of a save slot in another package, cut at every 4 KiB. -/
def slotPieces (a n key : Nat) : List Piece := (List.range (ceilDiv n 4096)).map (fun i => ⟨a + 4096 * i, min 4096 (n - 4096 * i), key⟩)

/-- R58: the bytes that the spill engine writes. -/
def spillBytes (c : Context) : Nat :=
  let foot := match c.task with
    | some t => t.plist.fphi - t.plist.fplo
    | none => 0
  min 4325376 (Config.registerImageBytes + (c.tiles.filter Tile.dirty).length * 5120 + 4 * 4096 + foot)

/-- R26, R57: a save slot in another package is read before its context is restored. -/
def slotAway (n : Nat) (t : Task) (c : Context) (s : State) : Fetch :=
  match t.slot with
  | none => .bytes [] s
  | some (q, i) =>
    let a := slotBase s q i
    if pkgOf a == pkgId s then .bytes [] s
    else fetchAway t.taskid n a t.desc.asid (slotPieces a (spillBytes c) ((asidEntry s t.desc.asid).key 0)) (fun _ => .load) (.preload n) s

/-- R348: the shadow task of core `n` ends before its first bundle; the shadow bank is free again. -/
def endShadow (n : Nat) (code : BitVec 8) (val : W64) (addr : Nat) (s : State) : State :=
  let d := coreAt s n
  let c := d.shd
  let s := setCore s n { d with
    shadow := .free
    shd := Context.reset
    preloads := d.preloads.filter (fun p => !c.isTask p.entry.task.taskid)
    swapReq := if d.swapReq == some .preempted && d.leaving == .no then none else d.swapReq }
  selectSoon (quadOf n) (endHeld n c code val addr s)

/-- R50: the core has no active context, so its shadow task swaps in. -/
def swapIdle (n : Nat) (s : State) : State :=
  if (coreAt s n).act.task.isNone then soon (.swap n) (modCoreAt n (fun d => { d with swapReq := some .idle }) s) else s

/-- R53 item 1: the registers of the shadow bank of core `n` are set, to the entry state or to the saved state. -/
def setEntry (n : Nat) (p : Preload) (c : Context) (s : State) : State :=
  let t := c.task.getD p.entry.task
  swapIdle n (modCoreAt n (fun d => { d with
    shd := c
    preloads := d.preloads.map (fun x =>
      if x.entry.task.taskid == t.taskid then { x with entry := { x.entry with task := t }, item := 2, off := 0 } else x) }) s)

/-- R36, R54: a new task: its preload list is read and checked. -/
def enterNew (n : Nat) (p : Preload) (s : State) : State :=
  let t := p.entry.task
  if t.desc.plist == 0 then
    setEntry n p (entryContext s (quadOf n) { t with plist := PreloadList.empty }) s
  else
    match fetchVia s n (taskView s t) t.desc.plist.toNat 128 64 with
    | .waits s => s
    | .fails e v => endShadow n e v t.desc.plist.toNat s
    | .bytes b s =>
      match listBad b with
      | some o => endShadow n 0x8D (BitVec.ofNat 64 o) t.desc.plist.toNat s
      | none => setEntry n p (entryContext s (quadOf n) { t with plist := parseList b }) s

/-- R57: a resumable entry: its saved state, which the shadow bank stands for from its selection, is restored. -/
def enterSaved (n : Nat) (p : Preload) (s : State) : State :=
  match slotFails s p.entry.task with
  | some i => endShadow n 0xB9 (BitVec.ofNat 64 i) 0 s
  | none =>
    match slotAway n p.entry.task (coreAt s n).shd s with
    | .waits s => s
    | .fails _ _ => endShadow n 0xB9 (BitVec.ofNat 64 ((p.entry.task.slot.map Prod.snd).getD 0)) 0 s
    | .bytes _ s => setEntry n p (coreAt s n).shd s

/-- R53 item 1. -/
def preloadEntry (n : Nat) (p : Preload) (s : State) : State := if p.entry.saved.isSome then enterSaved n p s else enterNew n p s

/-! ### The later items (R53) -/

/-- R53: the bytes of the item a preload is at. -/
def Preload.itemBytes (p : Preload) : Nat :=
  match p.item with
  | 2 => p.entry.task.plist.plen * 16
  | 3 => p.entry.task.plist.cslen * 16
  | 4 => (p.spans.getD p.range (0, 0)).2
  | _ => 0

/-- R53: the item that follows. -/
def Preload.nextItem (p : Preload) : Preload :=
  if p.item == 4 && p.range + 1 < p.spans.length then { p with range := p.range + 1, off := 0 }
  else { p with item := p.item + 1, range := 0, off := 0 }

/-- R53: go past items that are filled. -/
def Preload.skip : Nat → Preload → Preload
  | 0, p => p
  | f + 1, p => if 2 ≤ p.item && p.item ≤ 4 && p.itemBytes ≤ p.off then p.nextItem.skip f else p

/-- R53: whether two spans share a place; an empty one shares none. -/
def overlaps (a la b lb : Nat) : Bool := decide (max a b < min (a + la) (b + lb))

/-- R53: whether a task's program range is resident: that of the active task, which is another. -/
def resident (c : Context) (t : Task) : Bool :=
  match c.task with
  | none => false
  | some a => a.taskid != t.taskid && a.plist.psrc == t.plist.psrc && a.plist.pdst == t.plist.pdst && a.plist.plen == t.plist.plen && a.desc.asid == t.desc.asid

/-- R53: whether a program range overlaps that of the active task; with PLEN 0 that task owns the whole memory. -/
def programBlocked (c : Context) (t : Task) : Bool :=
  match c.task with
  | none => false
  | some a =>
    if a.plist.plen == 0 then true else overlaps t.plist.pdst t.plist.plen a.plist.pdst a.plist.plen

/-- R36: whether a span meets the footprint of a context. -/
def footprintMeets (c : Context) (lo len : Nat) : Bool :=
  match c.task with
  | none => false
  | some a => overlaps lo len a.plist.fplo (a.plist.fphi - a.plist.fplo)

/-- R53: whether the item a preload is at may not begin. -/
def Preload.mustWait (d : Core) (p : Preload) : Bool :=
  let own := d.act.isTask p.entry.task.taskid
  let departing := match d.shadow with
    | .spilling _ _ => true
    | _ => false
  match p.item with
  | 2 => !own && programBlocked d.act p.entry.task
  | 4 =>
    let r := p.spans.getD p.range (0, 0)
    (!own && footprintMeets d.act r.1 r.2) || (departing && footprintMeets d.shd r.1 r.2)
  | _ => false

/-- Write bytes from an offset of a store of bundles. -/
def fillLines (l : List (Nat × BitVec 128)) (o : Nat) : List Byte → List (Nat × BitVec 128)
  | [] => l
  | b :: bs => fillLines (setLineByte l o b) (o + 1) bs

/-- R53: put bytes of the item a preload of core `n` is at into their place, from the offset it has reached. -/
def putItem (n : Nat) (p : Preload) (bs : List Byte) (s : State) : State :=
  let own := (coreAt s n).act.isTask p.entry.task.taskid
  match p.item with
  | 2 => modCoreAt n (fun d => { d with imem := fillLines d.imem (p.entry.task.plist.pdst * 16 + p.off) bs }) s
  | 3 => modCoreAt n (fun d =>
      if d.half == own then { d with cstore1 := fillLines d.cstore1 p.off bs } else { d with cstore0 := fillLines d.cstore0 p.off bs }) s
  | _ => writeLocal 0 (sliceBase (cidOf n) + (p.spans.getD p.range (0, 0)).1 + p.off) bs s

/-- R53: where the item a preload is at comes from. -/
def Preload.source (p : Preload) : Nat :=
  let l := p.entry.task.plist
  match p.item with
  | 2 => l.psrc.toNat
  | 3 => l.csrc.toNat
  | _ => ((l.ranges.getD p.range (0, 0, 0)).1).toNat

/-- Replace a preload of a core, or drop it when it is filled and its task is active. -/
def putPreload (n : Nat) (p : Preload) (s : State) : State :=
  modCoreAt n (fun d => { d with
    preloads := (d.preloads.map (fun x => if x.entry.task.taskid == p.entry.task.taskid then p else x)).filter (fun x =>
      !(decide (5 ≤ x.item) && d.act.isTask x.entry.task.taskid)) }) s

/-- R53: the next bytes of an item: up to 64, within one aligned unit of the source. -/
def Preload.chunk (p : Preload) : Nat := min (64 - (p.source + p.off) % 64) (p.itemBytes - p.off)

/-- R53, R358: a preload read fails: its task ends, before its first bundle or where it stands. -/
def preloadFails (n : Nat) (p : Preload) (code : BitVec 8) (val : W64) (addr : Nat) (s : State) : State :=
  if (coreAt s n).act.isTask p.entry.task.taskid then
    let s := modSlot (fun x => { x with concern := addr }) (makeCurrent n s)
    endContext code val s.core.act.slotres false s
  else endShadow n code val addr s

/-- R53, R57: fill the next bytes of a preload. -/
def fillChunk (n : Nat) (p : Preload) (s : State) : State :=
  let go (bs : List Byte) (s : State) : State :=
    let q := ({ p with off := p.off + bs.length } : Preload).skip 8
    let s := putPreload n q (putItem n p bs s)
    if q.item < 5 then sometime (.preload n) s else s
  match p.entry.saved, p.item with
  | some (_, image), 4 => go ((image.drop p.off).take (min 64 (p.itemBytes - p.off))) s
  | _, _ =>
    let t := p.entry.task
    match fetchVia s n (taskView s t) (p.source + p.off) p.chunk 16 with
    | .waits s => s
    | .fails e v => preloadFails n p e v (p.source + p.off) s
    | .bytes bs s => go bs s

/-- R53: whether item 1 of the shadow task of core `n` is still to come. -/
def entryPending (s : State) (n : Nat) : Bool :=
  (coreAt s n).preloads.any (fun p => p.item == 1 && (coreAt s n).shd.isTask p.entry.task.taskid)

/-- R53: one act of the preload engine for core `n`: the first preload that is not finished, strictly in its order. -/
def preloadStep (n : Nat) (s : State) : State :=
  let d := coreAt s n
  match d.preloads.find? (fun p => decide (p.item < 5)) with
  | none => s
  | some p =>
    if p.blocked then s
    else if p.item == 1 then
      let s := preloadEntry n p s
      if (coreAt s n).preloads.isEmpty || entryPending s n then s else sometime (.preload n) s
    else
      let p := if p.item == 2 && p.off == 0 && resident d.act p.entry.task then p.nextItem else p
      let p := p.skip 8
      if 5 ≤ p.item then putPreload n p s
      else if p.off == 0 && p.mustWait d then putPreload n { p with blocked := true } s
      else if p.item == 4 && rowTested s (sliceBase (cidOf n) + (p.spans.getD p.range (0, 0)).1 + p.off) p.chunk then
        inTicks 1 (.preload n) s
      else fillChunk n p s

/-- R53 -/
def execPreload (s : State) : Out :=
  match s.happening with
  | .preload n => onCore n s (preloadStep n)
  | _ => .next s

/-- R53: blocked items of core `n` begin if their block has cleared. -/
def unblock (n : Nat) (s : State) : State :=
  let d := coreAt s n
  if d.preloads.any (fun p => p.blocked && !p.mustWait d) then
    soon (.preload n) (setCore s n { d with
      preloads := d.preloads.map (fun p => if p.mustWait d then p else { p with blocked := false }) })
  else s

/-- R53 -/
def execPreloadRangeUnblock (s : State) : Out :=
  match s.happening with
  | .preloadRangeUnblock n => onCore n s (unblock n)
  | _ => .next s

/-! ### Leaving the active bank (R55, R57, R58, R59, R298) -/

/-- R57: whether a context that leaves for a reason is saved. -/
def SwapReason.saves : SwapReason → Bool
  | .yielded _ | .preempted | .overrun => true
  | _ => false

/-- R181, R182: what a stalled slot still waits for once its context has left: the release of a barrier, or the answer of a
BARA, whose arrival has been made; other reads are made again. -/
def keptWait (s : State) (w : Wait) : Wait :=
  match w with
  | .barrier _ _ _ _ => w
  | .access id _ =>
    match accessAt s id with
    | some a =>
      match a.op with
      | .arrive _ => w
      | _ => .none
    | none => .none
  | _ => .none

/-- R55: every result and completion that needs no answer from outside has come by cycle 24. -/
def settleResults (n : Nat) (s : State) : State :=
  let c := (coreAt s n).act
  let c1 := (c.results.filter (fun r => r.due.isSome)).foldl (fun c r => c.arrive r.rid) c
  let ms := c1.completions.filter (fun m => m.due.isSome)
  let s := modCoreAt n (fun d => { d with act := ms.foldl (fun c m => c.complete m) c1 }) s
  ms.foldl (fun s m => countGroups n (m.due.getD 0) m.level m.groups m.dets s) s

/-- R59, R298: what is left of a task's budget and lease when its context leaves the active bank at a tick. -/
def Context.paused (tick : Nat) (c : Context) : Context :=
  match c.task, c.runFrom with
  | some t, some f =>
    { c with task := some { t with budget := t.budget - (tick - f), lease := t.lease - (tick - f) }, runFrom := none }
  | _, _ => c

/-- R58: take the unstarted commands of a task out of an engine. -/
def takeCommands (t : Nat) (e : Engine) (d : Core) : List (Engine × Command) × Core :=
  (((d.engine e).buffer.filter (fun k => k.taskid == t)).map (fun k => (e, k)),
    d.modEngine e (fun g => { g with buffer := g.buffer.filter (fun k => k.taskid != t) }))

/-- R168, R193: the bundles counted by a context that leaves or is stopped: one whose first slot still waits has not issued. -/
def bundlesLeft (d : Core) : W64 :=
  if d.slot.issued && d.atBoundary then d.act.bundles - 1 else d.act.bundles

/-- R55, R58: the active context of core `n` as it leaves: it holds its withdrawn commands and no time of this core. -/
def departing (n : Nat) (s : State) : Context × State :=
  let s := settleResults n s
  let k := bundlesLeft (coreAt s n)
  let t := (coreAt s n).act.tid
  let a := takeCommands t .c0 (coreAt s n)
  let b := takeCommands t .c1 a.2
  let c := b.2.act.paused (tickNow s)
  ({ c with
      withdrawn := c.withdrawn ++ a.1 ++ b.1
      split := if b.2.slot.issued then b.2.slot.wrote else c.split
      wait := keptWait s c.wait
      pushBusy := 0
      histReadyA := 0
      histReadyB := 0
      bundles := k
      flagsThen := 0
      drain := false }, setCore s n b.2)

/-- R57: reserve the save slot of a context that is to be saved. -/
def takeSlot (c : Context) (s : State) : Context × State :=
  match c.task with
  | none => (c, s)
  | some t =>
    if t.slot.isSome then (c, s)
    else
      match freeSlot s t.quad with
      | none => (c, s)
      | some i => ({ c with task := some { t with slot := some (t.quad, i) } }, modKiosk t.quad (fun k => { k with slotsUsed := i :: k.slotsUsed }) s)

/-! ### Entering the active bank (R50, R55, R59, R90, R101, R295, R298) -/

/-- R58: commands withdrawn when a context left return to their engines. -/
def restoreCommands (n : Nat) (l : List (Engine × Command)) (s : State) : State :=
  l.foldl (fun s p => fireCommand n p.1 p.2 s) s

/-- R264: streams of open circuits go on. -/
def resumeStreams (n : Nat) (c : Context) (s : State) : State :=
  (List.range 8).foldl (fun s h =>
    let v := c.handle h
    if (v.st == .opened || v.st == .closing) && !v.streams.isEmpty then soon (.streamStart c.tid h) s else s)
    (modCoreAt n (fun d => { d with act := { d.act with withdrawn := [] } }) s)

/-- R59, R298: the happenings that the budget and the lease of the context on core `n` lead to. -/
def startClocks (n tick : Nat) (s : State) : State :=
  match (coreAt s n).act.task with
  | none => s
  | some t =>
    let s := modCoreAt n (fun d => { d with act := { d.act with runFrom := some tick } }) s
    let s := atTime ((tick + t.budget) * Config.unitsPerTick) (.budgetExhausted n t.taskid) s
    if t.lease == 0 then s else atTime ((tick + t.lease) * Config.unitsPerTick) (.boostLeaseEnd n t.taskid) s

/-- R295: a transition at cycle 25 to the point of an incoming context where that differs from the point in force; STW.OPPT then shows the
point in force. -/
def takePoint (n k t : Nat) (s : State) : State :=
  let now := s.time
  let s := modCoreAt n (fun d => { d with act := d.act.putStw 5 3 d.op }) s
  if k == (coreAt s n).op then s else { requestOp n k { s with time := t } with time := now }

/-- R91: when the last matrix instruction of a core's active context in flight completes. -/
def matrixEnd (d : Core) : Nat :=
  d.act.completions.foldl (fun t m => max t (d.time + (m.due.getD 0 - d.cycle) * d.unit)) 0

/-- R50, R55, R91: a context enters the active bank of the current core `n`; its first bundle issues at the core's time, and the
rails move from then, or from `rt` if that is later. -/
def enterActive (n rt : Nat) (c : Context) (s : State) : State :=
  let s := modCore (fun d => { d with act := c, half := !d.half, slot := SlotCtx.idle }) s
  let at25 := s.core.time
  let s := startClocks n (at25 / Config.unitsPerTick) s
  let s := resumeStreams n c (restoreCommands n c.withdrawn s)
  let s := takePoint n (fld c.stw.toNat 5 3) at25 (settleRails n (max at25 rt) s)
  soon (.preloadRangeUnblock n) (rereadRanges s)

/-- R55: the cycles of a swap pass on the current core: from cycle 1 to cycle 25, or from cycle 0 where it was idle or has stopped. -/
def passSwap (r : SwapReason) (s : State) : State :=
  let k := match r with
    | .idle | .ended => 25
    | _ => 24
  modCore (fun d => (d.catchUp s.time).pass k) s

/-- R180, R358: what is left of a context that is not saved. -/
def discardContext (c : Context) (s : State) : State :=
  match c.task with
  | none => s
  | some t => dropCopy t.taskid (releaseTask t (releaseHandles c s))

/-- R53: the item 1 of a shadow task that is still to come is made before it enters. -/
def forceEntry (n : Nat) (s : State) : State :=
  let d := coreAt s n
  if d.shadow == .loaded then
    match d.preloads.find? (fun p => d.shd.isTask p.entry.task.taskid && p.item == 1) with
    | some p => preloadEntry n p s
    | none => s
  else s

/-- R30: the entries of the kiosk of core `n`, which has been retired, that can no longer be dispatched there migrate; one that comes
into a band later does so then. -/
def migrateEntries (n : Nat) (s : State) : State :=
  let q := quadOf n
  let es := (kioskAt s q).bands.flatten.filter (fun e => !e.dispatchable s q)
  es.foldl (fun s e => enqueue q e (modKiosk q (Kiosk.without e.task.taskid) s)) s

/-- R30, R374, R378: a core that is to be retired loses its AVAILMAP bit once it holds no task and its steering can be a new version of the
region table; its shadow task and the entries that can no longer run on it go elsewhere. -/
def retireIfDue (n : Nat) (s : State) : State :=
  let d := coreAt s n
  if d.retirePending && d.act.task.isNone && d.leaving == .no && !regionDrains s then
    let a := 0x100 + 8 * (n / 64)
    let s := newRegion [] (setReg a (putFld (regRaw s a) (n % 64) 1 0) (modCoreAt n (fun d => { d with retirePending := false }) s))
    selectSoon (quadOf n) (migrateEntries n (if d.shadow == .loaded then park n s else s))
  else s

/-- R55: the bank select has flipped: `c` has left the active bank of the current core for a reason, at the start of cycle 25. The
kiosk looks at the core once the incoming context's first bundle has issued (R56). -/
def flip (n rt : Nat) (r : SwapReason) (c : Context) (s : State) : State :=
  let s := modCore (fun d => { d with swapReq := none, leaving := .no, act := Context.reset, slot := SlotCtx.idle }) s
  let s := if r.saves then s else retireIfDue n s
  let incoming := if s.core.shadow == .loaded then some s.core.shd else none
  let s :=
    if r.saves then soon (.spill n) (modCore (fun d => { d with shadow := .spilling r false, shd := c }) s)
    else if incoming.isSome then modCore (fun d => { d with shadow := .free, shd := Context.reset }) s
    else s
  let s := match incoming with
    | some x => enterActive n rt x s
    | none => soon (.preloadRangeUnblock n) s
  selectSoon (quadOf n) s

/-- R55, R57, R59: a swap begins on the current core `n`: its save slot is reserved, its budget stands still, and cycles 1 to 24 pass. -/
def beginSwap (n : Nat) (r : SwapReason) (s : State) : State :=
  let y := if r.saves then takeSlot s.core.act s else (s.core.act, s)
  let c := y.1.paused (tickNow s)
  let c := match r with
    | .yielded t => { c with task := c.task.map (fun k => { k with accepted := t }) }
    | _ => c
  let s := passSwap r (modCore (fun d => { d with act := c }) y.2)
  atTime s.core.time (.swap n) (modCore (fun d => { d with leaving := .swap d.time }) s)

/-- R53, R55: cycle 25 of the swap of the current core `n`, which waits for item 1 of the incoming task where that is read in another package.
A context that has met its end meanwhile leaves once that is made (R358). -/
def endSwap (n : Nat) (r : SwapReason) (s : State) : State :=
  if s.core.act.ending.isSome && r != .ended then modCore (fun d => { d with swapReq := none, leaving := .no }) s
  else
    let s := makeCurrent n (forceEntry n s)
    if s.core.shadow == .loaded && entryPending s n then inTicks 1 (.swap n) s
    else
      let rt := matrixEnd s.core
      let x := departing n (modCore (fun d => d.catchUp s.time) s)
      flip n rt r x.1 (if r.saves then x.2 else discardContext x.1 x.2)

/-- R55, R56, R359, R362: the swap that core `n` has been asked for begins. A context without a save slot does not leave, but for an
overrun, which then ends it; a shadow bank that is still being saved is waited for. -/
def swapCore (n : Nat) (r : SwapReason) (s : State) : State :=
  let s := makeCurrent n s
  let spilling := s.core.shadow != .free && s.core.shadow != .loaded
  if r.saves && !s.core.act.task.any (hasSlot s) then
    if r == .overrun then
      endContext 0xB7 (BitVec.ofNat 64 ((s.core.act.task.map Task.quad).getD 0)) s.core.act.slotres false
        (modCore (fun d => { d with swapReq := none }) s)
    else modCore (fun d => { d with swapReq := none }) s
  else if r.saves && spilling then stallCycle s
  else if r == .preempted && s.core.shadow != .loaded then modCore (fun d => { d with swapReq := none }) s
  else beginSwap n r s

/-- R55: a swap begins, or one under way comes to cycle 25. -/
def swapStep (n : Nat) (r : SwapReason) (s : State) : State :=
  match (coreAt s n).leaving with
  | .swap t => if s.time < t then s else endSwap n r (makeCurrent n s)
  | .no => swapCore n r s
  | _ => s

/-- R55 -/
def execSwap (s : State) : Out :=
  match s.happening with
  | .swap n =>
    onCore n s (fun s =>
      match (coreAt s n).swapReq with
      | some (.migrated _) => s
      | some r => swapStep n r s
      | none => s)
  | _ => .next s

/-! ### The spill (R57, R58, R362) -/

/-- R58: whether what the departed context of a core had begun is over: steps 3 and 4, and its accesses. -/
def spillReady (s : State) (d : Core) : Bool :=
  let c := d.shd
  let clear (o : Option Nat) : Bool := o.all (fun x => decide (x ≤ d.cycle))
  c.tiles.all (fun t => clear t.wbusy && clear t.rbusy && t.wait.isNone) && c.accs.all (fun a => clear a.wbusy && clear a.rbusy && a.wait.isNone) &&
    c.completions.isEmpty && allPerformed s c.tid && !d.engines.any (fun e => e.runs c.tid) && !c.handles.any (fun h => h.running)

/-- R44, R362: whether the save slot of a context can be written: its bytes lie in memory. -/
def slotWritable (s : State) (t : Task) : Bool :=
  match t.slot with
  | none => false
  | some (q, i) =>
    let a := slotBase s q i
    encrypted (localOf a) && encrypted (localOf (a + 4325375)) &&
      regionOf (localOf a) == regionOf (localOf (a + 4325375))

/-- R219: the arrival time of the memory of a save slot. -/
def slotArrival (s : State) (n : Nat) (t : Task) : Nat :=
  match t.slot with
  | none => 0
  | some (q, i) => arrivalTicks s n (slotBase s q i)

/-- R26, R44, R58: the spill engine of core `n` writes its image of context `c` into the save slot of its task, encrypted under the first
key slot of its ASID; a slot in another package takes it as accesses, a unit in motion holds it back. What its bytes hold is open: the
layout belongs to the machine. -/
def writeImage (n : Nat) (t : Task) (c : Context) (s : State) : Fetch :=
  match t.slot with
  | none => .bytes [] s
  | some (q, i) =>
    let u := s.free
    let a := slotBase s q i
    let k := (asidEntry s c.asid).key 0
    let len := ceilDiv (spillBytes c) 64 * 64
    if pkgOf a != pkgId s then
      let ps := slotPieces a len k
      fetchAway t.taskid n a t.desc.asid ps
        (fun i => .store ((List.range (ps.getD i ⟨0, 0, 0⟩).len).map (fun j => Config.imageByte u (4096 * i + j)))) (.save n)
        { s with free := u + 1 }
    else if inMotion s (localOf a) len then .waits (inTicks 1 (.spill n) s)
    else .bytes [] (writeLocal k (localOf a) ((List.range len).map (Config.imageByte u)) { s with free := u + 1 })

/-- R58: whether accesses of the spill engine of core `n` for a task are on their way, or have come. -/
def imageAway (s : State) (n : Nat) (t : Task) : Bool := s.accesses.any (fun a => a.ret == .save n && a.taskid == t.taskid)

/-- R53, R58: the shadow bank of core `n` is free again. -/
def freeShadow (n : Nat) (s : State) : State :=
  let s := modCoreAt n (fun d => { d with shadow := .free, shd := Context.reset }) s
  selectSoon (quadOf n) (soon (.preloadRangeUnblock n) s)

/-- R362: the save slot of a departed context of core `n` cannot be written: its task ends. -/
def spillFails (n : Nat) (t : Task) (s : State) : State :=
  freeShadow n (endHeld n (coreAt s n).shd 0xB8 (BitVec.ofNat 64 ((t.slot.map Prod.snd).getD 0)) 0 s)

/-- R58: the tile as it is saved: clean, with no busy time of a core. -/
def Tile.saved (t : Tile) : Tile := { t with dirty := false, wbusy := none, rbusy := none }

/-- R58: the context as it is saved. -/
def Context.saved (c : Context) : Context :=
  { c with
    tiles := c.tiles.map Tile.saved
    accs := c.accs.map (fun a => { a with wbusy := none, rbusy := none, mmaBusy := false }) }

/-- R57, R359: the entry that a saved context becomes, in the band of its descriptor or held as overrun. -/
def holdSaved (n : Nat) (r : SwapReason) (t : Task) (c : Context) (s : State) : State :=
  let c := { c.saved with task := some t }
  let e : Entry := ⟨t, t.desc.band, tickNow s, 0, some (c, readHome s n t.plist.fplo (t.plist.fphi - t.plist.fplo)), false⟩
  let s := freeShadow n s
  if r == .overrun then modKiosk t.quad (fun k => { k with overrun := k.overrun ++ [e] }) s else enqueue t.quad e s

/-- R58: one act of the spill engine of core `n`. -/
def spillStep (n : Nat) (s : State) : State :=
  let d := coreAt s n
  match d.shadow, d.shd.task with
  | .spilling r written, some t =>
    if !imageAway s n t && (!spillReady s d || !written && rowTested s (sliceBase (cidOf n) + t.plist.fplo) (t.plist.fphi - t.plist.fplo)) then
      inTicks 1 (.spill n) s
    else if !slotWritable s t then spillFails n t s
    else if !written then
      inTicks (ceilDiv (spillBytes d.shd) 64 + slotArrival s n t) (.spill n) (setCore s n { d with shadow := .spilling r true })
    else
      match writeImage n t d.shd s with
      | .waits s => s
      | .fails _ _ => spillFails n t s
      | .bytes _ s => holdSaved n r t d.shd s
  | _, _ => s

/-- R58 -/
def execSpill (s : State) : Out :=
  match s.happening with
  | .spill n => onCore n s (spillStep n)
  | _ => .next s

end Sys2Proof.Machine
end

