-- ==== Sys2Proof/Machine/Health.lean ====
section
/-! DEFINITION. Corrected errors and row tests (R377, R378), patrol scrub (R379), table versions and units in motion (R102, R374,
R375). -/

namespace Sys2Proof.Machine

/-! ### Errors and spares (R378, R379) -/

/-- R378: the number that a record names a place by: the bank, the channel or the stack. -/
def placeNumber : MemPlace → Nat
  | .bank _ b => b
  | .imem _ => Config.bankNumber 0
  | .cstore _ => Config.bankNumber 1
  | .contexts _ => Config.bankNumber 2
  | .channel c => c
  | .stack d => d

/-- R378: the core a place belongs to. -/
def placeCore : MemPlace → Option Nat
  | .bank n _ | .imem n | .cstore n | .contexts n => some n
  | .channel _ | .stack _ => none

/-- R21, R24, R25: whether the module has a place. -/
def placeOk : MemPlace → Bool
  | .bank n b => n < Config.numCores && b < 32
  | .imem n | .cstore n | .contexts n => n < Config.numCores
  | .channel c => c < 32
  | .stack d => d < Config.numDies

/-- R378: ticks that a row test takes at most, where the manual sets a bound. -/
def testBound (s : State) : MemPlace → Option Nat
  | .bank n _ => some (96 * (coreAt s n).unit / Config.unitsPerTick)
  | .channel _ | .stack _ => some 2400
  | .imem _ | .cstore _ | .contexts _ => none

/-- R378: the test of a row begins; whether it finds a lasting fault is open until then, and so a free value. -/
def execCorrectedError (s : State) : Out :=
  match s.happening with
  | .correctedError p row =>
    if placeOk p then
      let s := { s with health := { s.health with testing := s.health.testing ++ [(p, row)] } }
      let done : Happening := .rowTestComplete p row (Config.rowLasting s.free)
      .next (match testBound s p with
        | some b => within b done s
        | none => sometime done s)
    else .fault .noSuchUnit
  | _ => .next s

/-- R378: a record of a memory place. -/
def placeRec (event : Nat) (p : MemPlace) (aux : Nat) : Rec :=
  { area := 1, event := event, cid := (placeCore p).map cidOf, tval := placeNumber p, aux := aux }

/-- R378: whether a row of a place lies in the bank of row `row`; DRAM has several banks in a place. -/
def sameBank (p : MemPlace) (row r : Nat) : Bool :=
  match p with
  | .channel _ | .stack _ => Config.dramBank r == Config.dramBank row
  | .bank _ _ | .imem _ | .cstore _ | .contexts _ => true

/-- R378: the spares in use of the bank that a row lies in. -/
def sparesUsed (s : State) (p : MemPlace) (row : Nat) : Nat := (s.health.spared.filter (fun e => e.1 == p && sameBank p row e.2)).length

/-- R378: a lasting fault: the row is spared, or with no spare left in a scratchpad bank the core is retired when its current task ends; other
memories keep serving, and the error is recorded. -/
def lastingFault (p : MemPlace) (row : Nat) (s : State) : State :=
  let k := sparesUsed s p row
  if k < 16 then
    record (placeRec 0x0102 p (row % 2 ^ 32 + k * 2 ^ 32)) { s with health := { s.health with spared := s.health.spared ++ [(p, row)] } }
  else
    let s := record (placeRec 0x0103 p row) s
    match p with
    | .bank n _ => retireIfDue n (modCoreAt n (fun d => { d with retirePending := true }) s)
    | _ => s

/-- R378 -/
def execRowTestComplete (s : State) : Out :=
  match s.happening with
  | .rowTestComplete p row lasting =>
    if placeOk p then
      let hit := s.health.testing.contains (p, row)
      let s := { s with health := { s.health with testing := s.health.testing.erase (p, row) } }
      .next (if !hit then s else if lasting then lastingFault p row s else record (placeRec 0x0101 p row) s)
    else .fault .noSuchUnit
  | _ => .next s

/-- R377: the protected unit that holds a local address: 64 bytes in DRAM, 8 bytes in a scratchpad. -/
def protUnit (a : Nat) : Nat := a / protSize a * protSize a

/-- R377, R379: a protected unit of a scratchpad or of DRAM holds data that cannot be corrected. -/
def loseUnit (a : Nat) (s : State) : State :=
  if (regionOf a == .slice || encrypted a) && !s.health.bad.contains (protUnit a) then
    { s with health := { s.health with bad := protUnit a :: s.health.bad } }
  else s

/-- R379: the scrub visits a 64-byte unit of DRAM: one known to be uncorrectable stays so, and whether another has become so is free. A unit
that becomes uncorrectable otherwise is found so by what reads it. -/
def execPatrolScrub (s : State) : Out :=
  match s.happening with
  | .patrolScrub u =>
    .next (if !encrypted (u * 64) then s
    else
      let known := s.health.bad.contains (u * 64)
      let found := known || Config.scrubFinds s.free
      let s := { s with free := s.free + 1, health := { s.health with bad := if found && !known then u * 64 :: s.health.bad else s.health.bad } }
      if found then record { area := 1, event := 0x0104, tval := memNumber s (u * 64), addr := pkgId s * 2 ^ 46 + u * 64 } s else s)
  | .uncorrectable a => .next (loseUnit a s)
  | _ => .next s

/-! ### Tables (R102, R374, R375) -/

/-- R375: the 4 KiB units with listed bytes whose channel differs between two tables. -/
def unitsMoved (old new : List Nat) (m : List Host.Cell) : List Nat :=
  (m.filterMap (fun c =>
    if regionOf c.1 == .lpddr && channelOf old c.1 != channelOf new c.1 then some (c.1 / 4096) else none)).eraseDups

/-- R374, R375: a new interleave table is in force; units begin to move, and the drain markers are on their way. -/
def installTable (m : List Nat) (s : State) : State :=
  let t := s.tables
  let us := unitsMoved t.map m s.mem
  let s := { s with tables := { t with version := (t.version + 1) % 4, map := m, old := some t.map, moving := t.moving ++ us, since := s.nextId } }
  sometime .tableDrainComplete (us.foldl (fun s u => sometime (.unitMove u) s) s)

/-- R374: an install waits while two versions are live. -/
def execInterleaveInstall (s : State) : Out :=
  match s.happening with
  | .interleaveInstall m =>
    .next (if s.tables.old.isSome then { s with tables := { s.tables with waiting := s.tables.waiting ++ [m] } } else installTable m s)
  | _ => .next s

/-- R374: the drain markers travel behind the requests that carry the older version; once all have arrived, that version is discarded and
the first install that waited goes on. -/
def drainTables (s : State) : State :=
  if routedBefore s s.tables.since then inTicks 1 .tableDrainComplete s
  else
    let s := { s with tables := { s.tables with old := none } }
    match s.tables.waiting with
    | m :: r => installTable m { s with tables := { s.tables with waiting := r } }
    | [] => s

/-- R374: the same of the region table: what waited for the next version goes on, first the entries that are to be freed. -/
def drainRegion (s : State) : State :=
  if routedBefore s s.tables.regionSince then inTicks 1 .regionDrainComplete s
  else
    let s := dropRemaps s.tables.toFree { s with tables := { s.tables with departed := none, toFree := [] } }
    ((allCores s).map Prod.fst).foldl (fun s n => retireIfDue n s) s

/-- R374 -/
def execTableDrainComplete (s : State) : Out :=
  match s.happening with
  | .tableDrainComplete => .next (if s.tables.old.isSome then drainTables s else s)
  | .regionDrainComplete => .next (if regionDrains s then drainRegion s else s)
  | _ => .next s

/-- R391: whether a channel's controller tests a row. -/
def channelTesting (s : State) (c : Nat) : Bool := s.health.testing.any (fun e => e.1 == .channel c)

/-- R375, R391: the move of a unit ends, a row test on its channel first. -/
def endMove (u : Nat) (s : State) : State :=
  if !s.tables.moving.contains u then s
  else if channelTesting s (channelOf s.tables.map (u * 4096)) || channelTesting s (channelOf (s.tables.old.getD s.tables.map) (u * 4096)) then
    inTicks 1 (.unitMove u) s
  else { s with tables := { s.tables with moving := s.tables.moving.filter (fun x => x != u) } }

/-- R375 -/
def execUnitMove (s : State) : Out :=
  match s.happening with
  | .unitMove u => .next (endMove u s)
  | _ => .next s

end Sys2Proof.Machine
end

