-- ==== Sys2Proof/Machine/Sha.lean ====
section
/-! DEFINITION. SHA-256, with which measurements are extended (R308; the function is that of FIPS 180-4). -/

namespace Sys2Proof.Machine

/-- The constants of the 64 rounds. -/
def shaConstants : List W32 :=
  [0x428a2f98, 0x71374491, 0xb5c0fbcf, 0xe9b5dba5, 0x3956c25b, 0x59f111f1, 0x923f82a4, 0xab1c5ed5] ++
  [0xd807aa98, 0x12835b01, 0x243185be, 0x550c7dc3, 0x72be5d74, 0x80deb1fe, 0x9bdc06a7, 0xc19bf174] ++
  [0xe49b69c1, 0xefbe4786, 0x0fc19dc6, 0x240ca1cc, 0x2de92c6f, 0x4a7484aa, 0x5cb0a9dc, 0x76f988da] ++
  [0x983e5152, 0xa831c66d, 0xb00327c8, 0xbf597fc7, 0xc6e00bf3, 0xd5a79147, 0x06ca6351, 0x14292967] ++
  [0x27b70a85, 0x2e1b2138, 0x4d2c6dfc, 0x53380d13, 0x650a7354, 0x766a0abb, 0x81c2c92e, 0x92722c85] ++
  [0xa2bfe8a1, 0xa81a664b, 0xc24b8b70, 0xc76c51a3, 0xd192e819, 0xd6990624, 0xf40e3585, 0x106aa070] ++
  [0x19a4c116, 0x1e376c08, 0x2748774c, 0x34b0bcb5, 0x391c0cb3, 0x4ed8aa4a, 0x5b9cca4f, 0x682e6ff3] ++
  [0x748f82ee, 0x78a5636f, 0x84c87814, 0x8cc70208, 0x90befffa, 0xa4506ceb, 0xbef9a3f7, 0xc67178f2]

/-- The hash value that a digest begins with. -/
def shaInitial : List W32 := [0x6a09e667, 0xbb67ae85, 0x3c6ef372, 0xa54ff53a, 0x510e527f, 0x9b05688c, 0x1f83d9ab, 0x5be0cd19]

/-- A word turned right. -/
def shaRot (x : W32) (n : Nat) : W32 := x.rotateRight n

/-- The message schedule: `n` more words, newest first. -/
def shaSchedule : Nat → List W32 → List W32
  | 0, w => w
  | n + 1, w =>
    let x := w.getD 14 0
    let y := w.getD 1 0
    let s0 := shaRot x 7 ^^^ shaRot x 18 ^^^ (x >>> 3)
    let s1 := shaRot y 17 ^^^ shaRot y 19 ^^^ (y >>> 10)
    shaSchedule n ((w.getD 15 0 + s0 + w.getD 6 0 + s1) :: w)

/-- One round on the eight working words. -/
def shaRound (v : List W32) (kw : W32 × W32) : List W32 :=
  match v with
  | [a, b, c, d, e, f, g, h] =>
    let t1 := h + (shaRot e 6 ^^^ shaRot e 11 ^^^ shaRot e 25) + ((e &&& f) ^^^ (~~~e &&& g)) + kw.1 + kw.2
    let t2 := (shaRot a 2 ^^^ shaRot a 13 ^^^ shaRot a 22) + ((a &&& b) ^^^ (a &&& c) ^^^ (b &&& c))
    [t1 + t2, a, b, c, d + t1, e, f, g]
  | _ => v

/-- One block of 64 bytes. -/
def shaBlock (v : List W32) (b : List Byte) : List W32 :=
  let w := (List.range 16).map (fun i => BitVec.ofNat 32 (fromBytes ((b.drop (4 * i)).take 4).reverse))
  let r := (shaConstants.zip (shaSchedule 48 w.reverse).reverse).foldl shaRound v
  (v.zip r).map (fun p => p.1 + p.2)

/-- The blocks of a padded message. -/
def shaBlocks : Nat → List Byte → List W32 → List W32
  | 0, _, v => v
  | n + 1, m, v => shaBlocks n (m.drop 64) (shaBlock v (m.take 64))

/-- The message with its padding. -/
def shaPad (m : List Byte) : List Byte :=
  m ++ [0x80] ++ List.replicate ((119 - m.length % 64) % 64) 0 ++ (toBytes 8 (8 * m.length)).reverse

/-- R308: SHA-256 of a message, as 32 bytes. -/
def sha256 (m : List Byte) : List Byte :=
  let p := shaPad m
  (shaBlocks (p.length / 64) p shaInitial).flatMap (fun w => (toBytes 4 w.toNat).reverse)

end Sys2Proof.Machine
end

