-- ==== Sys2Proof/Machine/Lodge.lean ====
section
/-! DEFINITION. The Lodge: TDISP interfaces, SPDM and tenant keys (R307 to R309), firmware hand-over (R310 to R314, R394, R395),
resets (R315), rings (R369) and plain register writes (R7). -/

namespace Sys2Proof.Machine

/-! ### Interfaces (R307, R314) -/

/-- R307: an interface, CONFIG_UNLOCKED until it is used. -/
def interfaceAt (s : State) (r : Nat) : Interface := assocGet r ⟨.configUnlocked, [], [], false, none⟩ s.interfaces

/-- Replace an interface. -/
def setInterface (r : Nat) (v : Interface) (s : State) : State := { s with interfaces := assocPut r v s.interfaces }

/-- R314: IFNW of an interface returns to its reset value. -/
def clearNotify (r : Nat) (s : State) : State := setReg (0x2500200 + 8 * r) 0 s

/-- R307: whether quads may be bound to interface `r`: they exist, and no other interface has one of them. -/
def bindable (s : State) (r : Nat) (quads : List Nat) : Bool :=
  quads.all (fun q => q < Config.numQuads && !s.interfaces.any (fun e => e.1 != r && e.2.quads.contains q))

/-- R307: a core after the scrub: its banks, instruction memory and control store are zeroed; what belongs to the core itself stays. -/
def Core.scrubbed (d : Core) : Core :=
  { Core.reset with
    half := d.half, cycle := d.cycle, time := d.time, cestall := d.cestall, weights := d.weights, op := d.op, opMove := d.opMove
    opHeld := d.opHeld, rail := d.rail, railEnds := d.railEnds, merr := d.merr, mgrp := d.mgrp, windowDet := d.windowDet
    countCycle := d.countCycle, countThen := d.countThen
    throttled := d.throttled, retirePending := d.retirePending }

/-- R307: a kiosk after the scrub: no entry is left. -/
def Kiosk.scrubbed (k : Kiosk) : Kiosk := { Kiosk.reset with seq := k.seq, rr := k.rr, samples := k.samples, spaces := k.spaces }

/-- R307: whether a local address lies in a slice of one of the quads. -/
def inQuads (quads : List Nat) (a : Nat) : Bool := regionOf a == .slice && quads.contains (quadOf (lcnOf (sliceCid a)))

/-- R307: the key slots of an interface are erased. -/
def eraseKeys (r : Nat) (s : State) : State :=
  { s with keys := s.keys.map (fun k => if k.2.iface == some r then (k.1, ⟨false, none, k.2.gen + 1, 0⟩) else k) }

/-- R307: the scrub of the quads of an interface, with everything their contexts still had under way. -/
def scrub (r : Nat) (s : State) : State :=
  let qs := (interfaceAt s r).quads
  let mine (n : Nat) : Bool := qs.contains (quadOf n)
  let s := eraseKeys r s
  { s with
    mem := s.mem.filter (fun c => !inQuads qs c.1)
    health := { s.health with bad := s.health.bad.filter (fun a => !inQuads qs a) }
    core := if mine s.lcn then s.core.scrubbed else s.core
    others := s.others.map (fun e => if mine e.1 then (e.1, e.2.scrubbed) else e)
    kiosks := s.kiosks.map (fun k => if qs.contains k.1 then (k.1, k.2.scrubbed) else k)
    accesses := s.accesses.filter (fun a => !mine a.lcn)
    bursts := s.bursts.filter (fun b => !mine b.lcn)
    remaps := s.remaps.filter (fun m => !mine m.new) }

/-- R307: the state an interface goes to on a message; other messages are ignored. -/
def tdispNext (s : State) (r : Nat) (v : Interface) : TdispMessage → Option Interface
  | .lock qs as => if v.st == .configUnlocked && bindable s r qs then some ⟨.configLocked, qs, as, false, none⟩ else none
  | .start => if v.st == .configLocked then some { v with st := .run, ran := true } else none
  | .stop =>
    if v.st == .configUnlocked then none
    else if v.ran then some { v with st := .error, scrubEnds := some 0 }
    else some ⟨.configUnlocked, [], [], false, none⟩
  | .error => some { v with st := .error }

/-- R307, R314: an interface moves. One that has been in RUN is scrubbed before it is CONFIG_UNLOCKED again, which takes a time within
its bound; until then it stands in ERROR (assumption 41). -/
def tdispMoves (r : Nat) (m : TdispMessage) (s : State) : State :=
  let v := interfaceAt s r
  match tdispNext s r v m with
  | none => s
  | some w =>
    let s := if v.st == .run && w.st != .run then clearNotify r s else s
    if w.scrubEnds.isSome then
      let d := min 60000 (Config.delay s.free)
      inTicks d (.tdispRequest r .stop) (setInterface r { w with scrubEnds := some (s.time + d * Config.unitsPerTick) }
        { s with free := s.free + 1 })
    else setInterface r w s

/-- R307: a message reaches an interface; while its scrub is under way nothing else is heard, and at its end, when
what has been reported before is written, it is CONFIG_UNLOCKED. -/
def tdisp (r : Nat) (m : TdispMessage) (s : State) : State :=
  match (interfaceAt s r).scrubEnds with
  | none => tdispMoves r m s
  | some t => if m == .stop && t ≤ s.time then setInterface r ⟨.configUnlocked, [], [], false, none⟩ (scrub r (numberReports s)) else s

/-- R307 -/
def execTdispRequest (s : State) : Out :=
  match s.happening with
  | .tdispRequest r m => if r < Config.numInterfaces then .next (tdisp r m s) else .fault .noSuchUnit
  | _ => .next s

/-! ### SPDM and keys (R308, R309) -/

/-- R308: a measurement: SHA-256 of what it was and of the digest of each content in turn, from 32 zero bytes (assumption 21). -/
def measurement (s : State) (i : Nat) : List Byte :=
  (s.measurements.getD (i - 1) []).foldl (fun m d => sha256 (m ++ toBytes 32 (Config.digest d))) (List.replicate 32 0)

/-- R308: extend measurement `i` with the digest of a content. -/
def extend (i : Nat) (d : List Nat) (s : State) : State :=
  { s with measurements := s.measurements.set (i - 1) (s.measurements.getD (i - 1) [] ++ [d]) }

/-- R307: the number of an interface state in a report. -/
def TdispState.code : TdispState → Nat
  | .configUnlocked => 0
  | .configLocked => 1
  | .run => 2
  | .error => 3

/-- R308: a report and its signature, of 7,856 bytes. -/
def signed (report : List Nat) (body : List Byte) : List Byte := body ++ toBytes 7856 (Config.signature report)

/-- R308: the answer to a request; a measurement that does not exist is answered with an error. -/
def spdmAnswer (s : State) : SpdmRequest → Option (List Byte)
  | .measurement i => if 1 ≤ i && i ≤ 6 then some (signed (i :: (measurement s i).map BitVec.toNat) (measurement s i)) else none
  | .identity => some (signed (Config.identityChain.map BitVec.toNat) Config.identityChain)
  | .interfaceReport r =>
    let v := interfaceAt s r
    if r < Config.numInterfaces then
      some (signed ([r, v.st.code] ++ v.quads ++ v.asids)
        (toBytes 1 v.st.code ++ v.quads.flatMap (toBytes 2) ++ v.asids.flatMap (toBytes 2)))
    else none

/-- R308 -/
def execSpdmRequest (s : State) : Out :=
  match s.happening with
  | .spdmRequest q => .next { s with answers := s.answers ++ [⟨0, spdmAnswer s q⟩] }
  | _ => .next s

/-- R309: a tenant key stands in a slot, bound to an interface. -/
def execKeySlotInstall (s : State) : Out :=
  match s.happening with
  | .keySlotInstall k r x =>
    if 1 ≤ k && k < 4096 && r < Config.numInterfaces then
      .next { s with keys := assocPut k ⟨true, some r, (keySlotAt s k).gen + 1, x⟩ s.keys }
    else .fault .noSuchUnit
  | _ => .next s

/-! ### Firmware hand-over (R310 to R314, R394, R395) -/

/-- Update the hand-over controller. -/
def modHandover (f : Handover → Handover) (s : State) : State := { s with handover := f s.handover }

/-- R308: the measurement of a firmware role. -/
def roleMeasure (role : Nat) : Nat := role + 2

/-- R310: the version of the image that runs in a role. -/
def roleVersion (s : State) (role : Nat) : Nat := s.handover.running.getD role 0

/-- R394: event 0x0401. -/
def refuseHandover (role reason : Nat) (s : State) : State := record { area := 4, event := 0x0401, tval := role, aux := reason } s

/-- R394: whether a hand-over is under way. -/
def handingOver (s : State) : Bool := decide (1 ≤ s.handover.st) && decide (s.handover.st ≤ 3)

/-- R310, R394: GO for a role: refused while another hand-over is under way or when the header does not verify; else the image is
verified and the hand-over goes on. After a refusal for another one's sake STATE reads 6 until that one's next step (DESIGN CHOICE, assumption
60). -/
def startHandover (role : Nat) (im : FirmwareImage) (s : State) : State :=
  if handingOver s then refuseHandover role 2 (modHandover (fun h => { h with refused := true }) s)
  else if !im.verified || im.role != role || role == 3 then
    refuseHandover role 0 (modHandover (fun h => { h with st := 6, refused := false }) s)
  else
    within 24000000 .handoverTrialStart (modHandover (fun h => { h with
      st := 1, role := role, hbok := 0, image := some im, frozen := false, beat := false, journal := [], watchOld := false
      taken := [], stopped := false, refused := false }) s)

/-- R310, R394: a write of FWHO; one whose GO is refused for another hand-over's sake changes nothing else. -/
def execFwhoGo (s : State) : Out :=
  match s.happening with
  | .fwhoGo v im =>
    .next (if !bit v.toNat 2 then plainRegWrite 0x2500100 v.toNat s
    else startHandover (fld v.toNat 0 2) im (if handingOver s then s else plainRegWrite 0x2500100 v.toNat s))
  | _ => .next s

/-- R313: measurement 6 takes a record of the role, the old and the new version and h, and events of kind 1 are written with the version
now running; AUX names the role's measurement and its extend count. -/
def logHandover (info new version : Nat) (s : State) : State :=
  let h := s.handover
  let s := extend 6 [h.role, roleVersion s h.role, new, h.began] s
  let i := roleMeasure h.role
  notifyHandover h.role info version (Config.measurementAux i (s.measurements.getD (i - 1) []).length) s

/-- R311: dispatch goes on in every kiosk. -/
def resumeDispatch (s : State) : State := s.kiosks.foldl (fun s k => soon (.kioskSelect k.1) s) s

/-- R312: the end of a heartbeat interval, at the end of its tick (R316). -/
def nextInterval (k : Nat) (s : State) : State :=
  atTime ((s.handover.instant + k * 1200000) * Config.unitsPerTick + (Config.unitsPerTick - 1)) (.heartbeatIntervalEnd k) s

/-- R311: the old instance serialises its state; the image must accept its version. Then the old instance is frozen. -/
def serialise (im : FirmwareImage) (s : State) : State :=
  let v := Config.stateVersion s.handover.role s.free % 65536
  let s := { s with free := s.free + 1 }
  if v < im.vmin || im.vmax < v then
    refuseHandover s.handover.role 1 (modHandover (fun h => { h with st := 6, sver := v, refused := false }) s)
  else within 60000 .handoverTrialStart (modHandover (fun h => { h with 
      st := 2, sver := v, frozen := true, journal := [], refused := false, instant := tickNow s }) s)

/-- R311, R313: the new instance starts at h, and takes the inputs that came since the freeze. -/
def startTrial (im : FirmwareImage) (s : State) : State :=
  let s := modHandover (fun h => { h with
    st := 3, frozen := false, instant := tickNow s, began := tickNow s, hbok := 0, beat := false, taken := h.journal, stopped := false
    refused := false }) s
  let s := extend (roleMeasure s.handover.role) [s.handover.role, im.version] s
  resumeDispatch (nextInterval 1 (logHandover 0 im.version im.version s))

/-- R311: the step before h that is due: serialising and freezing, or the start of the new instance. -/
def trialStep (s : State) : State :=
  match s.handover.image with
  | none => s
  | some im =>
    if s.handover.st == 1 then serialise im s
    else if s.handover.st == 2 then startTrial im s
    else s

/-- R311 -/
def execHandoverTrialStart (s : State) : Out :=
  match s.happening with
  | .handoverTrialStart => .next (trialStep s)
  | _ => .next s

/-- R312, R394: a write to FWHB; an instance that has stopped misses its interval whatever it wrote. -/
def execHeartbeat (s : State) : Out :=
  match s.happening with
  | .heartbeat => .next (modHandover (fun h => { h with beat := true }) s)
  | .instanceStops => .next (modHandover (fun h => { h with stopped := true }) s)
  | _ => .next s

/-- R312, R313, R394, R395: the new instance is stopped, and the old one resumes from its frozen state, takes the journal's inputs in the order
in which they arrived, and is watched in turn. -/
def fallBack (s : State) : State :=
  let h := s.handover
  let old := roleVersion s h.role
  let new := (h.image.map FirmwareImage.version).getD 0
  let s := modHandover (fun h => { h with
    st := 5, instant := tickNow s, frozen := false, beat := false, watchOld := true, taken := h.journal, stopped := false
    refused := false }) s
  let s := extend (roleMeasure h.role) [h.role, old] s
  let s := record { area := 4, cause := 0xB2, event := 0x0402, tval := h.role, aux := new } s
  resumeDispatch (nextInterval 1 (logHandover 2 new old s))

/-- R311, R312, R395: an interval of probation, or of the watch over a resumed old instance, ends. -/
def intervalEnd (k : Nat) (s : State) : State :=
  let h := s.handover
  let beat := h.beat && !h.stopped
  if tickNow s != h.instant + k * 1200000 then s
  else if h.st == 3 && h.hbok + 1 == k then
    if beat then
      let s := modHandover (fun h => { h with hbok := k, beat := false, refused := false }) s
      if k < 200 then nextInterval (k + 1) s else soon .handoverCommit s
    else fallBack s
  else if h.st == 5 && h.watchOld then
    if beat then
      let s := modHandover (fun h => { h with
        beat := false, watchOld := decide (k < 200), journal := if k < 200 then h.journal else [] }) s
      if k < 200 then nextInterval (k + 1) s else s
    else soon .oldInstanceHeartbeatMiss s
  else s

/-- R312 -/
def execHeartbeatIntervalEnd (s : State) : Out :=
  match s.happening with
  | .heartbeatIntervalEnd k => .next (intervalEnd k s)
  | _ => .next s

/-- R311, R313: the old instance is discarded. -/
def commitHandover (s : State) : State :=
  match s.handover.image with
  | none => s
  | some im =>
    if s.handover.st == 3 && s.handover.hbok == 200 then
      let s := logHandover 1 im.version im.version s
      modHandover (fun h => { h with st := 4, running := h.running.set h.role im.version, journal := [], refused := false }) s
    else s

/-- R311 -/
def execHandoverCommit (s : State) : Out :=
  match s.happening with
  | .handoverCommit => .next (commitHandover s)
  | _ => .next s

/-! ### Resets (R315) -/

/-- R273: the address of FPERM of a die. -/
def fpermAddr (die : Nat) : Nat := 0x2200000 + die * 0x1000

/-- R273: the five minima of FPERM, MREQ, MRSP, MDATA, MCTL, MMGT. -/
def minimaOf (v : Nat) : List Nat := [0, 8, 16, 24, 32].map (fun i => fld v i 8)

/-- R388: one class gives up reserve toward 1 permit until the sum is at most `u`; one that reserves none has none to give. -/
def cutClass (u : Nat) (m : List Nat) (i : Nat) : List Nat := m.set i (max (min 1 (m.getD i 0)) (m.getD i 0 - (m.sum - u)))

/-- R388: minima that fit `u` usable permits: DATA, REQ, CTL, RSP, MGMT give up reserve in that order. -/
def cutMinima (u : Nat) (m : List Nat) : List Nat := if m.sum ≤ u then m else [2, 0, 3, 1, 4].foldl (cutClass u) m

/-- R273, R368: minima as FPERM[39:0] packs them. -/
def packMinima (m : List Nat) : Nat := m.foldr (fun x n => x % 256 + 256 * n) 0

/-- R388: the contexts in the banks of core `n`, whose die is retired, end with 0xA3 and the number of the port. -/
def losePort (port n : Nat) (s : State) : State :=
  let d := coreAt s n
  let v := BitVec.ofNat 64 port
  let s := match d.act.task with
    | some t => if d.act.ending.isNone then failTask t.taskid 0xA3 v d.act.order s else s
    | none => s
  match d.shadow with
  | .free => s
  | .loaded => endShadow n 0xA3 v 0 s
  | .spilling _ _ => freeShadow n (endHeld n d.shd 0xA3 v 0 s)

/-- R30, R388: the die of a port that cannot keep one permit a class is retired: its AVAILMAP bits are cleared, its contexts end, and the
entries of its kiosks migrate. -/
def retireDie (port : Nat) (s : State) : State :=
  let die := dieOfQuad port
  let ns := (List.range 144).map (fun i => die * 144 + i)
  let s := ns.foldl (fun s n =>
    let a := 0x100 + 8 * (n / 64)
    setReg a (putFld (regRaw s a) (n % 64) 1 0) s) (newRegion [] s)
  let s := record { area := 2, event := 0x0207, tval := die } s
  ((List.range 36).map (fun i => die * 36 + i)).foldl (fun s q => migrateEntries (q * 4) s) (ns.foldl (fun s n => losePort port n s) s)

/-- R388: a trunk port that is left with `u` usable permits. -/
def trunkAfterTest (port u : Nat) (s : State) : State :=
  let m := minimaOf (regRaw s (fpermAddr (dieOfQuad port)))
  if u < 5 then retireDie port { s with trunks := assocPut port ⟨u, m.map (min 1)⟩ s.trunks }
  else
    let c := cutMinima u m
    let s := { s with trunks := assocPut port ⟨u, c⟩ s.trunks }
    if c == m then s else record { area := 2, event := 0x0202, tval := u, aux := packMinima c } s

/-- R30, R315: AVAILMAP as self-test fills it. -/
def fillAvail (avail : List W64) (s : State) : State :=
  (List.range 18).foldl (fun s w => setReg (0x100 + 8 * w) (avail.getD w (BitVec.allOnes 64)).toNat s) s

/-- R308: the fabric, permit, interleave and connection tables as installed. -/
def tableContent (s : State) : List Nat :=
  (List.range Config.numDies).flatMap (fun d =>
    regRaw s (fpermAddr d) :: (List.range 8).map (fun i => regRaw s (0x2200100 + d * 0x1000 + 8 * i))) ++ s.tables.map

/-- R315 steps 2 to 6: what a bring-up leaves: AVAILMAP filled, trunk ports tested, the package's identity kept or assigned, the tables
and the images that are loaded measured. -/
def bringUp (pkgid : BitVec 10) (avail : List W64) (usable : List (Nat × Nat)) (s : State) : State :=
  let s := fillAvail avail (setReg 0 (0x1004804B + pkgid.toNat * 2 ^ 32) s)
  let s := (usable.filter (fun p => p.1 < Config.numQuads && p.2 < 256)).foldl (fun s p => trunkAfterTest p.1 p.2 s) s
  extend 4 [2, roleVersion s 2] (extend 3 [1, roleVersion s 1] (extend 5 (tableContent s) s))

/-- R315: a cold reset: the machine as it is after reset, the boot ROM and Damdiso measured, brought up. -/
def execColdReset (s : State) : Out :=
  match s.happening with
  | .coldReset pkgid avail usable => .next (bringUp pkgid avail usable (extend 2 [0, roleVersion State.reset 0] (extend 1 [] State.reset)))
  | _ => .next s

/-- R89, R168, R315: a core after a warm reset: its clock and its counters run on. -/
def Core.warm (d : Core) : Core :=
  { Core.reset with
    time := d.time, cycle := d.cycle, cestall := d.cestall, merr := d.merr, mgrp := d.mgrp, windowDet := d.windowDet
    countCycle := d.countCycle, countThen := d.countThen }

/-- The happenings that recur every 4,096 ticks, from the next multiple after a time (R52, R276, R299). -/
def periodicFrom (t : Nat) : List (Nat × Happening) :=
  periodicAt ((t / (4096 * Config.unitsPerTick) + 1) * (4096 * Config.unitsPerTick))

/-- R315: the machine after a warm reset: every context, register and piece of work is gone, every interface CONFIG_UNLOCKED and its
keys erased; the time, the bytes of memory, the sequence counter, what is known of faults (R275), the sensor history and the images that run are kept. -/
def warmState (s : State) : State :=
  { State.reset with
    time := s.time
    free := s.free
    nextId := s.nextId
    seq := s.seq
    agenda := periodicFrom s.time
    lcn := s.lcn
    core := s.core.warm
    others := s.others.map (fun e => (e.1, e.2.warm))
    mem := s.mem
    unitKey := s.unitKey
    keys := s.keys.map (fun k => (k.1, ⟨false, none, k.2.gen + 1, 0⟩))
    history := s.history
    tables := { s.tables with old := none, waiting := [], moving := [], departed := none, toFree := [] }
    glass := s.glass
    health := { s.health with testing := [] }
    measurements := s.measurements
    handover := { Handover.reset with running := s.handover.running } }

/-- R307, R370: interfaces that have been in RUN are scrubbed; what has been reported before is written first. -/
def scrubRun (s : State) : State := (s.interfaces.filter (fun e => e.2.ran)).foldl (fun s e => scrub e.1 s) (numberReports s)

/-- R315: a warm reset keeps PKGID; what has been reported before it is numbered first (R370). -/
def warmReset (avail : List W64) (usable : List (Nat × Nat)) (s : State) : State :=
  bringUp (BitVec.ofNat 10 (pkgId s)) avail usable (warmState (numberReports s))

/-- R315, R374, R388 -/
def execWarmReset (s : State) : Out :=
  match s.happening with
  | .warmReset avail usable => .next (warmReset avail usable (scrubRun s))
  | .trunkDegraded port u => onQuad port s (fun s =>
      if 256 ≤ u then s
      else if u < 5 && regionDrains s then inTicks 1 (.trunkDegraded port u) s
      else trunkAfterTest port u s)
  | _ => .next s

/-- R395: the old instance has failed after a fallback: roles 1 and 2 are reloaded, restart from the
journal and are watched again, role 0 is reset warm, with every
interface that was in RUN in ERROR. -/
def oldInstanceMiss (s : State) : State :=
  let role := s.handover.role
  let s := record { area := 4, event := 0x0403, tval := role } s
  if role == 0 then
    let avail := (List.range 18).map (fun w => BitVec.ofNat 64 (regRaw s (0x100 + 8 * w)))
    let run := (s.interfaces.filter (fun e => e.2.st == .run)).map (fun e => (e.1, ({ e.2 with st := .error } : Interface)))
    let s := scrubRun { s with interfaces := s.interfaces.filter (fun e => e.2.st != .run) }
    { warmReset avail (s.trunks.map (fun p => (p.1, p.2.usable))) s with interfaces := run }
  else
    let s := modHandover (fun h => { h with instant := tickNow s, beat := false, taken := h.journal, stopped := false }) s
    nextInterval 1 (extend 6 [role, roleVersion s role, s.handover.instant] s)

/-- R395 -/
def execOldInstanceHeartbeatMiss (s : State) : Out :=
  match s.happening with
  | .oldInstanceHeartbeatMiss => .next (if s.handover.st == 5 && s.handover.watchOld then oldInstanceMiss s else s)
  | _ => .next s

/-! ### Rings and plain registers (R7, R369) -/

/-- R369: a write to ERRBASE also sets HEAD, TAIL and LOST to 0. -/
def execErrbaseWrite (s : State) : Out :=
  match s.happening with
  | .errbaseWrite r v =>
    if r < 65 then .next (setReg (errBaseAddr r + 8) 0 (plainRegWrite (errBaseAddr r) v.toNat s)) else .fault .noSuchUnit
  | _ => .next s

/-- R7, R8 -/
def execRegisterWrite (s : State) : Out :=
  match s.happening with
  | .registerWrite a v => .next (regWrite a v.toNat s)
  | _ => .next s

/-! ### The freeze and the journal (R311) -/

/-- R311: what waits while the old instance is frozen: register traffic to the Lodge for role 0, and for role 2 the lanterns
launched in that span. -/
def heldBack (s : State) (i : Happening) : Bool :=
  s.handover.frozen && (match s.handover.role, i with
    | 0, .boostLeaseRequest _ | 0, .rackBudgetMessage _ => true
    | 0, .registerWrite a _ => roleOf a == some 0
    | 2, .lanternLaunch _ _ => true
    | 2, .lanternHop id => s.lanterns.any (fun l => l.id == id && decide (s.handover.instant ≤ l.launched))
    | _, _ => false)

/-- R311: the role that a happening is an input to. -/
def inputRole : Happening → Option Nat
  | .pwrctlWrite _ _ | .boostLeaseRequest _ | .rackBudgetMessage _ | .tdispRequest _ _ | .spdmRequest _ | .keySlotInstall _ _ _
  | .errbaseWrite _ _ => some 0
  | .barcfgWrite a _ => roleOf a
  | .taskAcceptance _ _ _ | .kactAddBudget _ _ _ | .kactKill _ _ | .kactRerun _ _ => some 1
  | .fpermWrite _ _ | .conntabWrite _ _ _ => some 2
  | _ => none

/-- R311: an input to the role being replaced, from the freeze to the end of probation, is journalled. A fallback gives the journal's inputs to
the old instance (R312). They have acted on the hardware state, which it reads, so the replay leaves that state as it is. -/
def journalled (i : Happening) (s : State) : State := journal (inputRole i) i s

end Sys2Proof.Machine
end

