-- ==== Sys2Proof/Machine/Fabric.lean ====
section
/-! DEFINITION. The Promenade and the Colonnade: transit times (R269, R274), slots and lanterns (R274, R275, R279, R280, R384), the
turnstile (R276 to R278), fabric registers (R273, R275, R389), and counting into completion objects (R115, R116, R380). -/

namespace Sys2Proof.Machine

/-! ### Transit (R269, R274) -/

/-- R17: the row of a quad on its die. -/
def rowOf (q : Nat) : Nat := q % 36 / 6
/-- R17: the column of a quad on its die. -/
def colOf (q : Nat) : Nat := q % 6

/-- R269: uncontended one-way ticks between two cores. -/
def promTicks (a b : Nat) : Nat := if dieOf a == dieOf b then 3 * (hopsBetween (quadOf a) (quadOf b) + 1) else 30
where
  /-- Mesh hops between two quads of a die. -/
  hopsBetween (x y : Nat) : Nat :=
    (rowOf x - rowOf y) + (rowOf y - rowOf x) + (colOf x - colOf y) + (colOf y - colOf x)

/-! ### Slots (R274, R275) -/

/-- R274: slots held at a place. -/
def heldAt (s : State) (p : Port) : Nat := (s.held.filter (fun x => x.port == p)).length

/-- R275, R385: the Glasshouse state of a die. -/
def glassAt (s : State) (die : Nat) : Glass := assocGet die ⟨[], [], [], [60, 61, 62, 63], []⟩ s.glass

/-- R275: the address of CONNTAB[d][e]. -/
def conntabAddr (d e : Nat) : Nat := 0x2200100 + d * 0x1000 + 8 * e

/-- R275: CONNTAB[d][e].SLOTS. -/
def trunkSlots (s : State) (d e : Nat) : Nat := if d == e then 0 else fld (regRaw s (conntabAddr d e)) 0 4

/-- R275: whether a trunk slot of a die is held, toward any die. -/
def trunkHeld (s : State) (d k : Nat) : Bool :=
  s.held.any (fun x =>
    match x.port with
    | .trunk d' _ k' => d' == d && k' == k
    | _ => false)

/-- R275: the slots of die `d` in use toward die `e`. -/
def trunkUse (s : State) (d e : Nat) : Nat :=
  (s.held.filter (fun x =>
    match x.port with
    | .trunk d' e' _ => d' == d && e' == e
    | _ => false)).length

/-- R275: the trunk slot that a lantern from die `d` to die `e` finds. -/
def freeTrunk (s : State) (d e : Nat) : Option Port :=
  if trunkUse s d e < trunkSlots s d e then
    ((List.range 12).find? (fun k => !trunkHeld s d k && !(glassAt s d).deadSlots.contains k)).map (fun k => .trunk d e k)
  else none

/-- R275, R385: whether the crosspoint of a core's quad works. -/
def crossWorks (s : State) (n : Nat) : Bool := !(glassAt s (dieOf n)).deadCross.contains (quadOf n % 36)

/-- R274: a slot of the attachment `p` of core `n`, if one is free and the crosspoint works. -/
def freeAttach (s : State) (n : Nat) (p : Port) : Option Port := if heldAt s p < 4 && crossWorks s n then some p else none

/-- R274: a circuit slot of a crosspoint output, if one is free and the crosspoint works. -/
def freeOut (s : State) (die r c dir : Nat) : Option Port :=
  if heldAt s (.out die r c dir) < 2 && !(glassAt s die).deadCross.contains (r * 6 + c) then some (.out die r c dir) else none

/-! ### Lanterns (R279, R280, R384) -/

/-- R279: where a lantern on one die stands: the source's quad, or beyond the last output it holds. -/
def Lantern.at (l : Lantern) : Nat × Nat :=
  match l.path with
  | (.out _ r c d, _) :: _ => if d == 0 then (r - 1, c) else if d == 1 then (r, c + 1) else if d == 2 then (r + 1, c) else (r, c - 1)
  | _ => (rowOf (quadOf l.src), colOf (quadOf l.src))

/-- R279: the candidate outputs toward a place, the column direction first. -/
def outputsToward (p q : Nat × Nat) : List Nat :=
  (if q.1 < p.1 then [0] else if p.1 < q.1 then [2] else []) ++ (if p.2 < q.2 then [1] else if q.2 < p.2 then [3] else [])

/-- R279: the candidates of the hop a lantern is at, each with a free slot or a conflict. -/
def hopCandidates (s : State) (l : Lantern) : List (Option Port) :=
  if l.path.isEmpty then [freeAttach s l.src (.tx l.src)]
  else if dieOf l.src != dieOf l.dst then
    if l.path.length == 1 then [freeTrunk s (dieOf l.src) (dieOf l.dst)] else [freeAttach s l.dst (.rx l.dst)]
  else
    let q := quadOf l.dst
    match outputsToward l.at (rowOf q, colOf q) with
    | [] => [freeAttach s l.dst (.rx l.dst)]
    | ds => ds.map (freeOut s (dieOf l.src) l.at.1 l.at.2)

/-- R279: whether a slot is the last of a path. -/
def isRx : Port → Bool
  | .rx _ => true
  | _ => false

/-- Replace a lantern. -/
def putLantern (l : Lantern) (s : State) : State := { s with lanterns := s.lanterns.map (fun x => if x.id == l.id then l else x) }

/-- A turnstile's entries. -/
def turnstileAt (s : State) (q : Nat) : List (Option Flow) := assocGet q (List.replicate Config.flowEntries none) s.turnstiles

/-- An entry of a turnstile. -/
def flowAt (s : State) (q i : Nat) : Option Flow := (turnstileAt s q).getD i none

/-- Replace an entry of a turnstile. -/
def putFlow (q i : Nat) (f : Option Flow) (s : State) : State :=
  { s with turnstiles := assocPut q ((turnstileAt s q).set i f) s.turnstiles }

/-- Update an entry of a turnstile. -/
def modFlow (q i : Nat) (g : Flow → Flow) (s : State) : State := putFlow q i ((flowAt s q i).map g) s

/-- R385: the trap of a stream that has lost its circuit. -/
def lostDefer (h : Nat) (m : Stream) : Deferred := ⟨0x89, BitVec.ofNat 64 (h + m.committed * 256), m.order, 0⟩

/-- R302, R385: a handle becomes LOST: the stream at its head takes a deferred 0x89, the others are dropped. -/
def Context.loseHandle (h : Nat) (c : Context) : Context :=
  let v := c.handle h
  let c := c.setHandle h { v with st := .lost, streams := [], running := false, expired := false }
  match v.streams with
  | [] => c
  | m :: _ => c.defer (lostDefer h m)

/-- R262, R280, R385: a PENDING handle becomes REFUSED, with the backtracks its lantern used; one deferred 0x88 tells of streams that
were queued. -/
def Context.refuseHandle (h back : Nat) (c : Context) : Context :=
  let v := c.handle h
  let c := c.setHandle h { v with st := .refused, back := back, streams := [], running := false }
  match v.streams with
  | [] => c
  | m :: _ => c.defer ⟨0x88, BitVec.ofNat 64 h, m.order, 0⟩

/-- R280, R302, R384: a lantern fails or is abandoned: its slots are released and its owner told. -/
def lanternFails (l : Lantern) (s : State) : State :=
  let s := releaseOwner l.owner s
  match l.owner with
  | .flow q i => modFlow q i (fun f => { f with st := .heldOff 4 }) s
  | .handle t h =>
    modTask t (fun c =>
      match (c.handle h).st with
      | .pending => c.refuseHandle h l.back
      | .opened | .closing => c.loseHandle h
      | _ => c) s

/-- R282: the landing entry that a lantern's acknowledgement leaves at the far core. -/
def makeLanding (l : Lantern) (s : State) : State :=
  match l.owner with
  | .flow q i =>
    match flowAt s q i with
    | some f => { s with landings := s.landings ++ [⟨f.flow, q, i, [], false, f.offset, f.offset, 0⟩] }
    | none => s
  | .handle _ _ => s

/-- R280: a free slot is reserved: on to the next hop, or after the last back to the source at 2 ticks a hop. -/
def reserve (l : Lantern) (p : Port) (s : State) : State :=
  let s := { s with held := s.held ++ [⟨p, l.owner⟩] }
  let l' := { l with path := (p, l.cand) :: l.path, cand := 0, st := .probe }
  if isRx p then
    inTicks (2 * l'.path.length) (.lanternAck l.id) (makeLanding l' (putLantern { l' with st := .ack } s))
  else inTicks 4 (.lanternHop l.id) (putLantern l' s)

/-- R279, R280: a backtrack is counted; the slot held at the hop before is released at its end, 4 ticks later. -/
def backtrack (l : Lantern) (s : State) : State :=
  match l.path with
  | [] => lanternFails l s
  | _ :: _ =>
    if l.back < 3 then inTicks 4 (.lanternHop l.id) (putLantern { l with back := l.back + 1, st := .retry } s) else lanternFails l s

/-- R280: PROBE: the candidate being tried has a free slot, or is a conflict. -/
def probe (l : Lantern) (s : State) : State :=
  match (hopCandidates s l).getD l.cand none with
  | some p => reserve l p s
  | none => backtrack l s

/-- R280: RETRY: the slot is released; an untried candidate of its hop is tried, else the lantern goes back further. -/
def retryHop (l : Lantern) (s : State) : State :=
  match l.path with
  | [] => lanternFails l s
  | (p, c) :: r =>
    let l := { l with path := r, cand := c }
    let s := putLantern l { s with held := s.held.erase ⟨p, l.owner⟩ }
    if c + 1 < (hopCandidates s l).length then inTicks 4 (.lanternHop l.id) (putLantern { l with cand := c + 1, st := .probe } s)
    else backtrack l s

/-- R280: the time in the present tick at which a lantern from a lower core tries its hop. -/
def lowerLantern (s : State) (l : Lantern) : Option Nat :=
  (s.agenda.find? (fun e =>
    match e.2 with
    | .lanternHop j => e.1 / Config.unitsPerTick == tickNow s && s.lanterns.any (fun x => x.id == j && decide (x.src < l.src))
    | _ => false)).map Prod.fst

/-- R280: a hop of a lantern; of several in one tick the lower source core's comes first. -/
def lanternStep (id : Nat) (s : State) : State :=
  match s.lanterns.find? (fun l => l.id == id) with
  | none => s
  | some l =>
    match lowerLantern s l with
    | some t => atTime t (.lanternHop id) s
    | none =>
      match l.st with
      | .probe => probe l s
      | .retry => retryHop l s
      | _ => s

/-- R280 -/
def execLanternHop (s : State) : Out :=
  match s.happening with
  | .lanternHop id => .next (lanternStep id s)
  | _ => .next s

/-- R384, R368: the record of an abandoned lantern. -/
def abandonedRec (l : Lantern) : Rec := { area := 2, event := 0x0201, tval := cidOf l.src, aux := l.label }

/-- R384 -/
def execLanternTimeout (s : State) : Out :=
  match s.happening with
  | .lanternTimeout id =>
    .next (match s.lanterns.find? (fun l => l.id == id) with
      | none => s
      | some l => lanternFails l (record (abandonedRec l) { s with landings := s.landings.filter (fun x => .flow x.q x.entry != l.owner) }))
  | _ => .next s

/-! ### Completion objects (R115, R116, R380) -/

/-- The core and context of a task, wherever it is. -/
def holder (s : State) (t : Nat) : Option (Nat × Context) :=
  match activeOn s t with
  | some n => some (n, (coreAt s n).act)
  | none =>
    match shadowOn s t with
    | some n => some (n, (coreAt s n).shd)
    | none => (savedCtx s t).map (fun c => ((c.task.map (fun k => k.quad * 4)).getD 0, c))

/-- R26, R104, R115, R116: an update of a completion object at a piece performs here, or goes as an access to
where it is held. -/
def updateObject (t n order : Nat) (va : W64) (op : AccessOp) (p : Piece) (s : State) : State :=
  if pkgOf p.pa != pkgId s || inMotion s (localOf p.pa) p.len then
    remoteUpdate t n order va.toNat false p op (((ctxOf s t).map Context.asid).getD 0) s
  else
    let r := performOp op [p] va.toNat s
    match r.1.failed with
    | some f => failTask t f.1 f.2 order r.2
    | none => r.2

/-- R115, R116, R380: count `n` bytes delivered for task `t` into a bound object; `order` is the place of the instruction. -/
def countBinding (t : Nat) (b : Binding) (n order : Nat) (s : State) : State :=
  let go (va : W64) (op : AccessOp) : State :=
    match holder s t with
    | none => s
    | some (m, c) =>
      match translate s m c va.toNat 16 .write 1 with
      | .fail _ _ => s
      | .ok p => updateObject t m order va op p s
  if n == 0 then s
  else
    match b with
    | .none => s
    | .sync va => go va (.syncCount n)
    | .slot va => go va (.slotCount n)

/-! ### Fabric registers (R273, R275, R388, R389) -/

/-- R389: event 0x0208. -/
def refusedWrite (a v : Nat) (s : State) : State := record { area := 2, event := 0x0208, tval := a, aux := v } s

/-- R273, R388, R389: a write to FPERM sets the minima of every trunk port of the die, cut to what a degraded port can keep, or is
refused whole. -/
def writeFperm (die : Nat) (v : Nat) (s : State) : State :=
  let m := minimaOf v
  if 256 < m.sum then refusedWrite (fpermAddr die) v s
  else
    let s := plainRegWrite (fpermAddr die) v s
    { s with trunks := s.trunks.map (fun p => if dieOfQuad p.1 == die then (p.1, ⟨p.2.usable, cutMinima p.2.usable m⟩) else p) }

/-- R273 -/
def execFpermWrite (s : State) : Out :=
  match s.happening with
  | .fpermWrite die v => onDie die s (writeFperm die v.toNat)
  | _ => .next s

/-- R275, R389: a write to CONNTAB[d][e]; one for e = d is ignored. -/
def writeConntab (d e v : Nat) (s : State) : State :=
  let k := fld v 0 4
  let others := (((List.range 8).filter (fun x => x != e)).map (trunkSlots s d)).sum
  if d == e then s
  else if 12 < others + k then refusedWrite (conntabAddr d e) v s
  else plainRegWrite (conntabAddr d e) v s

/-- R275 -/
def execConntabWrite (s : State) : Out :=
  match s.happening with
  | .conntabWrite d e v =>
    if d < Config.numDies && e < Config.numDies then .next (writeConntab d e v.toNat s) else .fault .noSuchUnit
  | _ => .next s

end Sys2Proof.Machine
end

