-- ==== Sys2Proof/Machine/Links.lean ====
section
/-! DEFINITION. Links to other modules: stations (R284, R387), caps on outstanding bytes (R285, R286), link keys (R290, R390). -/

namespace Sys2Proof.Machine

/-! ### Stations (R284, R387) -/

/-- A direction of a link at start: in service, its first key installed (R289). -/
def Link.fresh : Link := ⟨false, [some 0, none], false, false, 0, 0, false, 0, 0, 0, true, [], 0, 0⟩

/-- A direction of a link: UALink station 0 to 7, or Ethernet port 0 to 7 as link 8 to 15, transmitting; 16 more, receiving. -/
def linkAt (s : State) (l : Nat) : Link := assocGet l Link.fresh s.links

/-- Update a link. -/
def modLink (l : Nat) (f : Link → Link) (s : State) : State := { s with links := assocPut l (f (linkAt s l)) s.links }

/-- R387: what a happening of a link does, where the module has that link. -/
def onLink (l : Nat) (s : State) (k : State → State) : Out := if l < 16 then .next (k s) else .fault .noSuchUnit

/-- R289: what a happening of a direction of a link does, where the module has that link. -/
def onWay (l : Nat) (s : State) (k : State → State) : Out := if l < 32 then .next (k s) else .fault .noSuchUnit

/-- R289: the receiving direction of a link. -/
def inbound (l : Nat) : Nat := l + 16

/-- R284, R387: the station by which an access to an address of another package leaves, if one is in service. -/
def stationFor (s : State) (pkg pa : Nat) : Option Nat :=
  ((List.range 8).map (fun i => (stationOf pkg pa + i) % 8)).find? (fun k => (linkAt s k).inService)

/-- R382: whether a request for a package can leave. -/
def reachable (s : State) (pkg pa : Nat) : Bool := Config.inPod pkg && (stationFor s pkg pa).isSome

/-! ### Caps (R285, R286) -/

/-- R285: the cap of a peer; it is 64 KiB when the peer is first reached. -/
def peerAt (s : State) (p : Nat) : Peer := (s.peers.find? (fun x => x.pkg == p)).getD ⟨p, 65536, 0, 0, none, none⟩

/-- Replace the record of a peer. -/
def putPeer (v : Peer) (s : State) : State := { s with peers := v :: s.peers.filter (fun x => x.pkg != v.pkg) }

/-- R285: whether a request of `n` bytes may leave now. -/
def peerRoom (s : State) (p n : Nat) : Bool := decide ((peerAt s p).outstanding + n ≤ (peerAt s p).cap)

/-- R285: bytes become outstanding. -/
def peerTake (p n : Nat) (s : State) : State := putPeer { peerAt s p with outstanding := (peerAt s p).outstanding + n } s

/-- R382: the bytes of a failed request leave at once. -/
def peerGive (p n : Nat) (s : State) : State := putPeer { peerAt s p with outstanding := (peerAt s p).outstanding - n } s

/-- R286: UACFG. -/
def uacfg (s : State) : Nat := regRaw s 0x2300000

/-- R285, R291: a response of `n` bytes with a round trip of `rtt` ticks adjusts a cap; there is at most one cut per RTTT ticks. A cut
and an increase of one tick give the cut: of the cap as it was before the increase. -/
def Peer.response (cfg tick n rtt : Nat) (v : Peer) : Peer :=
  let v := { v with outstanding := v.outstanding - n, acked := v.acked + n }
  if fld cfg 0 16 < rtt then
    if v.lastCut.all (fun t => decide (t + fld cfg 0 16 ≤ tick)) then
      let cap := match v.rose with
        | some (t, c) => if t == tick then c else v.cap
        | none => v.cap
      { v with cap := max (cap / 2) (fld cfg 24 8 * 1024), acked := 0, lastCut := some tick, rose := none }
    else v
  else if v.cap ≤ v.acked && v.lastCut != some tick then
    { v with cap := min (v.cap + fld cfg 16 8 * 1024) (fld cfg 32 12 * 1024), acked := 0, rose := some (tick, v.cap) }
  else v

/-- R285 -/
def execUalinkResponse (s : State) : Out :=
  match s.happening with
  | .ualinkResponse p n rtt => .next (putPeer ((peerAt s p).response (uacfg s) (tickNow s) n rtt) s)
  | _ => .next s

/-! ### Link keys (R290, R390) -/

/-- R289: the slot, 0 or 1, that a selector names. -/
def slotIdx (selector : Bool) : Nat := b2n selector

/-- R290: a key is installed in the slot of a link that its transmitter does not use. -/
def Link.install (k : Link) : Link :=
  { k with installs := k.installs + 1, slots := k.slots.set (slotIdx (!k.selector)) (some (k.installs + 1)) }

/-- R290: the count at which the Lodge rotates a key. -/
def rotateUses : Nat := 2 ^ 40

/-- R390: the count at which a link is stopped. -/
def keyUses : Nat := 2 ^ 41

/-- R289: the initialisation vector of a flit or packet: the link identifier and its count under its slot. -/
def linkIv (l count : Nat) : Nat := l % 2 ^ 32 * 2 ^ 64 + count % 2 ^ 64

/-- R289: `n` flits or packets are encrypted with the slot that a direction of a link transmits with, whose selector bit each carries, and
counted under it. What went in earlier ticks has arrived. -/
def Link.send (tick n : Nat) (k : Link) : Link :=
  { k with
    count := k.count + n
    flight := ⟨tick, k.selector, k.count, n, ((k.slots.getD (slotIdx k.selector) none).getD 0)⟩ :: k.flight.filter (fun r => r.tick == tick) }

/-- R289: whether the receiver of a direction of a link decrypts a run of flits: the slot that its bit names holds a key under which the tag
of each is the one that it carries. -/
def Link.decrypts (l : Nat) (k : Link) (r : FlitRun) : Bool :=
  (k.slots.getD (slotIdx r.selector) none).any (fun x =>
    x == r.key || (List.range r.flits).all (fun i => Config.linkTag x (linkIv l (r.first + i)) == Config.linkTag r.key (linkIv l (r.first + i))))

/-- R289, R390: the flits that came last over a direction of a link are decrypted; one that fails its tag check is replayed. -/
def checkTags (l : Nat) (s : State) : State :=
  match (linkAt s l).flight with
  | r :: _ => if (linkAt s l).decrypts l r then s else soon (.linkReplay l r.first) s
  | [] => s

/-- R289, R290, R390: flits or packets go over a direction of a link: they count under the slot in use, which brings the rotation of the
key, and at the limit of its use the end of the link. -/
def sendFlits (l n : Nat) (s : State) : State :=
  let c := (linkAt s l).count
  let s := checkTags l (modLink l (Link.send (tickNow s) n) s)
  let s := if c < rotateUses && rotateUses ≤ c + n then soon (.linkKeyRotation l) s else s
  if c < keyUses && keyUses ≤ c + n then soon (.keyUseLimit l) s else s

/-- R284, R289: a request or a response for an address of another package leaves by its station. -/
def byStation (pkg pa use : Nat) (s : State) : State :=
  match stationFor s pkg pa with
  | some k => sendFlits k (Config.linkFlits use) s
  | none => s

/-- R284, R289: a request or a response of another package for an address comes in by its station. -/
def fromStation (pkg pa use : Nat) (s : State) : State :=
  match stationFor s pkg pa with
  | some k => sendFlits (inbound k) (Config.linkFlits use) s
  | none => s

/-- R390: ticks of 10 ms. -/
def installTicks : Nat := 12000000

/-- R290: ticks of 1 ms. -/
def retireTicks : Nat := 1200000

/-- R290: the new key is installed in the idle slot at both ends; the receiver reports ready after a time that nothing bounds. -/
def rotate (l : Nat) (s : State) : State :=
  let s := modLink l (fun k => { k.install with rotating := true, ready := false, installed := tickNow s }) s
  inTicks installTicks (.keyInstallTimeout l) (sometime (.keySelectorSwitch l) s)

/-- R290: a rotation is asked for. A link that is being rotated already goes on; while the idle slot still holds the key that was in use
before, the new one waits until that is retired. -/
def askRotation (l : Nat) (s : State) : State :=
  let k := linkAt s l
  if k.rotating then s
  else if (k.slots.getD (slotIdx (!k.selector)) none).isSome then
    atTime (max (k.switched + retireTicks) (tickNow s + 1) * Config.unitsPerTick) (.linkKeyRotation l) s
  else rotate l s

/-- R290 -/
def execLinkKeyRotation (s : State) : Out :=
  match s.happening with
  | .linkKeyRotation l => onWay l s (askRotation l)
  | _ => .next s

/-- R290, R291: a direction of a link as its transmitter changes to the new slot, whose count starts at 0. Of flits that go in the tick of
the change, the first `b` carry the old bit and the others the new one. -/
def Link.switch (tick b : Nat) (k : Link) : Link :=
  let key := (k.slots.getD (slotIdx (!k.selector)) none).getD 0
  let k := { k with ready := true, rotating := false, selector := !k.selector, count := 0, attempts := 0, retired := false, switched := tick }
  match k.flight with
  | r :: rs =>
    if r.tick == tick && b < r.flits then
      { k with count := r.flits - b, flight := ⟨tick, k.selector, 0, r.flits - b, key⟩ :: { r with flits := b } :: rs }
    else k
  | [] => k

/-- R289, R290: the transmitter changes to the new slot; no flit is held, dropped or sent again. -/
def switchKey (l : Nat) (s : State) : State :=
  if (linkAt s l).rotating then
    let u := s.free
    sometime (.keySlotRetire l) (modLink l (Link.switch (tickNow s) (Config.flitsBefore u)) { s with free := u + 1 })
  else s

/-- R289, R290 -/
def execKeySelectorSwitch (s : State) : Out :=
  match s.happening with
  | .keySelectorSwitch l => onWay l s (switchKey l)
  | _ => .next s

/-- R290: the old slot is retired at the receiver no sooner than 1 ms after the switch. -/
def execKeySlotRetire (s : State) : Out :=
  match s.happening with
  | .keySlotRetire l =>
    onWay l s (fun s =>
      let k := linkAt s l
      if !k.ready then s
      else if tickNow s < k.switched + retireTicks then
        atTime ((k.switched + retireTicks) * Config.unitsPerTick) (.keySlotRetire l) s
      else modLink l (fun k => { k with retired := true, slots := k.slots.set (slotIdx (!k.selector)) none }) s)
  | _ => .next s

/-- R390: a key that is not confirmed within 10 ms of its install is recorded and tried again; traffic keeps the old key. -/
def execKeyInstallTimeout (s : State) : Out :=
  match s.happening with
  | .keyInstallTimeout l =>
    onWay l s (fun s =>
      if (linkAt s l).rotating && decide ((linkAt s l).installed + installTicks ≤ tickNow s) then
        let s := modLink l (fun k => { k.install with attempts := k.attempts + 1, installed := tickNow s }) s
        inTicks installTicks (.keyInstallTimeout l) (record { area := 2, event := 0x0204, tval := l % 16, aux := (linkAt s l).attempts } s)
      else s)
  | _ => .next s

/-- R390, R387: a link at its key-use limit is recorded and taken out of service. -/
def execKeyUseLimit (s : State) : Out :=
  match s.happening with
  | .keyUseLimit l =>
    onWay l s (fun s =>
      let s := modLink l (fun k => { k with count := keyUses }) s
      soon (.stationOutOfService (l % 16)) (record { area := 2, event := 0x0205, tval := l % 16, aux := keyUses } s))
  | _ => .next s

/-- R387: flit number `f` of a direction of a link is replayed once more, or another one is. -/
def Link.replay (f : Nat) (k : Link) : Link := { k with flit := f, replays := if k.flit == f then k.replays + 1 else 1 }

/-- R387: the sixteenth replay of one flit in a row takes the link out of service. -/
def execLinkReplay (s : State) : Out :=
  match s.happening with
  | .linkReplay l f =>
    onWay l s (fun s =>
      let s := modLink l (Link.replay f) s
      if (linkAt s l).replays == 16 && (linkAt s (l % 16)).inService then soon (.stationOutOfService (l % 16)) s else s)
  | _ => .next s

end Sys2Proof.Machine
end

