-- ==== Sys2Proof/Machine/Bursts.lean ====
section
/-! DEFINITION. Copy commands as their engine runs them (R112, R257, R258, R373), their bursts on the Promenade and on circuits (R268,
R276 to R283, R386), watermarks (R114, R255), and counting (R115, R116). -/

namespace Sys2Proof.Machine

/-! ### Commands (R253, R257) -/

/-- R257: whether a count makes a command empty. -/
def Command.empty (k : Command) : Bool := k.staging.n.any (fun x => x == 0)

/-- R257: the loop counters after a row, level 1 first, under the counts; none after the last row. -/
def bump : List Nat → List Nat → Option (List Nat)
  | i :: is, n :: ns => if i + 1 < n then some ((i + 1) :: is) else (bump is ns).map (fun r => 0 :: r)
  | _, _ => none

/-- R257: an address of the nest. -/
def nestAddr (base : W64) (idx : List Nat) (strides : List Int) (off : Nat) : Nat :=
  (base + BitVec.ofInt 64 ((List.zipWith (fun (i : Nat) (z : Int) => (i : Int) * z) idx (strides.drop 1)).sum) + BitVec.ofNat 64 off).toNat

/-- Update the running command of an engine. -/
def modRunning (n : Nat) (e : Engine) (f : Running → Running) (s : State) : State :=
  modCoreAt n (Core.modEngine e (fun g => { g with running := g.running.map f })) s

/-- R258: a free engine starts the command at its buffer's head when its issue tick has come. -/
def startCommand (n : Nat) (e : Engine) (s : State) : State :=
  match ((coreAt s n).engine e).running, ((coreAt s n).engine e).buffer with
  | none, k :: r =>
    if s.time < k.tick * Config.unitsPerTick then s
    else soon (.copyBurst n e)
      (modCoreAt n (Core.modEngine e (fun _ => ⟨r, some ⟨k, List.replicate 5 0, 0, k.empty, 0, false, k.cid, none⟩⟩)) s)
  | _, _ => s

/-- R258 -/
def execCopyCommandStart (s : State) : Out :=
  match s.happening with
  | .copyCommandStart n e => onCore n s (startCommand n e)
  | _ => .next s

/-- R109, R284: whether a release made for task `t` after number `id` in program order may perform: the earlier accesses have performed,
and at POD scope those to other packages have been acknowledged. -/
def mayRelease (s : State) (t id : Nat) (pod : Bool) : Bool :=
  (pendingOf s t).all (fun a => decide (id ≤ a.id)) && !claimPending s t id && !(pod && unackedBefore s t id)

/-- R112, R118, R119: whether the accesses and claimed host entries that a command's reads come after have performed; an empty command has
its acquire and release alone. -/
def copyOrdered (s : State) (r : Running) : Bool :=
  !claimPending s r.cmd.taskid r.cmd.cid &&
  (pendingOf s r.cmd.taskid).all (fun a =>
    !(decide (a.id < r.cmd.cid) && (r.cmd.acq || (!r.cmd.empty && a.cls == r.cmd.cls)))) &&
  (!(r.cmd.empty && r.cmd.rel) || mayRelease s r.cmd.taskid r.cmd.cid (r.cmd.scope == .pod))

/-- R257: the command is complete once every burst has performed. -/
def settleCommand (n : Nat) (e : Engine) (s : State) : State :=
  match ((coreAt s n).engine e).running with
  | some r => if r.issued && r.outstanding == 0 then soon (.copyCommandComplete n e) s else s
  | none => s

/-- R257, R258: the engine is free for its next command. -/
def execCopyCommandComplete (s : State) : Out :=
  match s.happening with
  | .copyCommandComplete n e =>
    onCore n s (fun s =>
      match ((coreAt s n).engine e).running with
      | some r =>
        if r.issued && r.outstanding == 0 then
          startCommand n e (modCoreAt n (Core.modEngine e (fun g => { g with running := none })) s)
        else s
      | none => s)
  | _ => .next s

/-- R259, R373: a command that has faulted issues no further burst, and the commands of its channel that wait are withdrawn. -/
def faultCommand (n : Nat) (e : Engine) (t ch : Nat) (s : State) : State :=
  let s := modRunning n e (fun r => { r with issued := true, faulted := true }) s
  unschedule (fun h => h == .copyBurst n e)
    (modCoreAt n (Core.modEngine e (fun g => { g with buffer := g.buffer.filter (fun k => !(k.taskid == t && k.ch == ch)) })) s)

/-- R344: the detail of 0x80. -/
def copyDetail (ch va : Nat) : W64 := BitVec.ofNat 64 (ch + va % 2 ^ 56 * 256)

/-! ### Bursts leave and end -/

/-- Replace a burst. -/
def putBurst (b : Burst) (s : State) : State := { s with bursts := s.bursts.map (fun x => if x.id == b.id then b else x) }

/-- A burst is over: its engine has one less outstanding. -/
def burstGone (b : Burst) (s : State) : State :=
  modRunning b.lcn b.engine (fun r => if r.uid == b.uid then { r with outstanding := r.outstanding - 1 } else r)
    { s with bursts := s.bursts.filter (fun x => x.id != b.id) }

/-- R26, R284: the parts of a burst. -/
def siblings (s : State) (b : Burst) : List Burst := s.bursts.filter (fun x => x.whole.group == b.whole.group)

/-- A burst is over with every part of it. -/
def wholeGone (b : Burst) (s : State) : State := (siblings s b).foldl (fun s x => burstGone x s) s

/-- R373, R379, R382: a burst fails: its context takes a deferred cause and its command ends as one that has faulted. -/
def burstFails (b : Burst) (code : BitVec 8) (val : W64) (s : State) : State :=
  settleCommand b.lcn b.engine (faultCommand b.lcn b.engine b.taskid b.ch (wholeGone b (failTaskAt b.taskid (if b.stage == 0 then b.srcVa else b.va) code val b.order s)))

/-- R114, R255: the units of its range that MARK passes: those filled from it on. -/
def Watermark.advance : Nat → Watermark → Watermark
  | 0, w => w
  | n + 1, w => if w.filled.contains w.mark then Watermark.advance n { w with mark := w.mark + 1, filled := w.filled.erase w.mark } else w

/-- R255: one write burst to the home window fills the units that it covers wholly. -/
def Watermark.fill (lo hi : Nat) (w : Watermark) : Watermark :=
  if !w.bound then w
  else
    let us := ((List.range (hi / 16 - (lo + 15) / 16)).map (fun i => (lo + 15) / 16 + i)).filter (fun u =>
      decide (w.mark ≤ u) && decide (u < w.limit) && !w.filled.contains u)
    let w := { w with filled := w.filled ++ us }
    Watermark.advance w.filled.length w

/-- R114, R260: what a performed burst does to its context: it fills units and adds to the channel's bytes. -/
def Context.burstDone (b : Burst) (c : Context) : Context :=
  let i := chanIdx b.engine b.ch
  let c := { c with copied := c.copied.set i ((c.copied.getD i 0 + b.len) % 2 ^ 48) }
  if isHome b.va b.len && b.va < 2 ^ 57 then
    { c with marks := c.marks.set i ((c.marks.getD i Watermark.reset).fill b.va (b.va + b.len)) }
  else c

/-- R115, R116, R255, R257, R260: the bytes of a burst have performed. The last part of one that goes by several routes counts for all of
them, once no other part is left. -/
def countBurst (b : Burst) (s : State) : State :=
  match (siblings s b).filter (fun x => x.id != b.id) with
  | [] =>
    if b.last then
      let w := { b with va := b.whole.va, len := b.whole.len }
      countBinding b.taskid b.bind b.whole.len b.order (modTask b.taskid (Context.burstDone w) s)
    else s
  | x :: _ => if b.last then putBurst { x with last := true } s else s

/-- R255, R257, R260, R374, R379: a burst performs at its destination in this package: its bytes stand, its units are filled, it is
counted. -/
def performBurst (b : Burst) (s : State) : State :=
  if b.dst.any (fun p => partialBad s (localOf p.pa) p.len) then burstFails b 0x6B (BitVec.ofNat 64 b.va) s
  else
    let s := { writePieces b.dst b.bytes (asSent b.id s) with remaps := s.remaps }
    settleCommand b.lcn b.engine (burstGone b (countBurst b s))

/-! ### The turnstile (R276 to R278) -/

/-- R276: the other core in whose slice a burst's bytes go. -/
def burstCore (s : State) (b : Burst) : Option Nat :=
  match b.dst with
  | [] => none
  | p :: _ =>
    let a := remapLocal s (localOf p.pa)
    if pkgOf p.pa == pkgId s && regionOf a == .slice && lcnOf (sliceCid a) != b.lcn then some (lcnOf (sliceCid a)) else none

/-- R277: TURNCFG of a quad. -/
def turncfg (s : State) (q : Nat) : Nat := regRaw s (0x1000200 + q * 0x1000)

/-- R276: whether an entry may be taken for another flow. -/
def Flow.takable (f : Flow) : Bool := f.st == .counting

/-- R276: the takable entry with the smallest count, the lowest of several. -/
def leastEntry (es : List (Option Flow)) : Option Nat :=
  ((List.range es.length).foldl (fun (m : Option (Nat × Nat)) i =>
    match es.getD i none with
    | some f =>
      if !f.takable then m
      else match m with
        | none => some (i, f.count)
        | some x => if f.count < x.2 then some (i, f.count) else m
    | none => m) none).map Prod.fst

/-- R276: the entry that a flow has. -/
def entryOf (s : State) (q : Nat) (fid : FlowId) : Option Nat :=
  findIdx (fun (o : Option Flow) => o.any (fun f => f.flow == fid)) (turnstileAt s q) 0

/-- R276: the entry a new flow takes. -/
def newEntry (s : State) (q : Nat) : Option Nat :=
  match findIdx (fun (o : Option Flow) => o.isNone) (turnstileAt s q) 0 with
  | some i => some i
  | none => leastEntry (turnstileAt s q)

/-- R268: flits of the packet of a burst: a header and its bytes. -/
def Burst.flits (b : Burst) : Nat := 1 + ceilDiv b.len 64

/-- R268: the time at which the link of core `n` to its router can take a packet. -/
def linkStart (s : State) (n : Nat) : Nat := max s.time (coreAt s n).linkFree

/-- R268, R269: the packet of a burst is injected, one flit a tick, from when the link can take it; it arrives `d` ticks after its last
flit. -/
def packet (b : Burst) (d : Nat) (s : State) : State :=
  let t := linkStart s b.lcn
  let s := modCoreAt b.lcn (fun c => { c with linkFree := t + b.flits * Config.unitsPerTick }) (putBurst b s)
  atTime (t + (b.flits - 1 + d) * Config.unitsPerTick) (.burstPerform b.id) s

/-! ### Permits (R270, R272, R273, R388) -/

/-- R270: the code of a class. -/
def MsgClass.code : MsgClass → Nat
  | .req => 0
  | .rsp => 1
  | .data => 2
  | .ctl => 3
  | .mgmt => 4

/-- R272, R388: the usable permits and the minima of the trunk port at a quad's router. -/
def portAt (s : State) (port : Nat) : TrunkPort := assocGet port ⟨256, minimaOf (regRaw s (fpermAddr (dieOfQuad port)))⟩ s.trunks

/-- R272: the permits held of a trunk port, reserved and shared, by class code. -/
def permitsAt (s : State) (port : Nat) : List (Nat × Nat) := assocGet port (List.replicate 5 (0, 0)) s.permits

/-- R273: BCAP of the die of a port. -/
def bcap (s : State) (port : Nat) : Nat := fld (regRaw s (fpermAddr (dieOfQuad port))) 40 8

/-- R272: whether a reserved permit of a class is free at a port. -/
def reservedFree (s : State) (port : Nat) (c : MsgClass) : Bool :=
  decide (((permitsAt s port).getD c.code (0, 0)).1 < (portAt s port).minima.getD c.code 0)

/-- R272: whether a shared permit is free at a port and a class may hold one more. -/
def sharedFree (s : State) (port : Nat) (c : MsgClass) : Bool :=
  let p := portAt s port
  let l := permitsAt s port
  decide ((l.map Prod.snd).sum < p.usable - p.minima.sum) && decide ((l.getD c.code (0, 0)).2 < bcap s port)

/-- R272: the permit that a flit of a class takes, with whether it is a shared one: a reserved one first; none while the flit must wait. -/
def grantPermit (s : State) (port : Nat) (c : MsgClass) : Option Bool :=
  if reservedFree s port c then some false else if sharedFree s port c then some true else none

/-- Change the permits that a class, by its code, holds of a port. -/
def modPermits (port c : Nat) (g : Nat × Nat → Nat × Nat) (s : State) : State :=
  let l := permitsAt s port
  { s with permits := assocPut port (l.set c (g (l.getD c (0, 0)))) s.permits }

/-- R272: a flit of a class takes a permit and crosses; the permit returns as the receiver forwards the flit out of the buffer. -/
def takePermit (port : Nat) (c : MsgClass) (shared : Bool) (s : State) : State :=
  inTicks 30 (.permitReturn port c.code shared)
    (modPermits port c.code (fun h => if shared then (h.1, h.2 + 1) else (h.1 + 1, h.2)) s)

/-- R272, R273: a permit returns to the part of the pool that it came from. -/
def returnPermit (port c : Nat) (shared : Bool) (s : State) : State :=
  modPermits port c (fun h => if shared then (h.1, h.2 - 1) else (h.1 - 1, h.2)) s

/-- R269: the trunk port of this package by which a burst's packet reaches another compute die: that of the quad where it emerges. -/
def burstPort (s : State) (b : Burst) : Option Nat :=
  match b.dst with
  | [] => none
  | p :: _ =>
    let a := remapLocal s (localOf p.pa)
    if pkgOf p.pa != pkgId s then none
    else
      match regionOf a with
      | .slice => if dieOf (lcnOf (sliceCid a)) == dieOf b.lcn then none else some (quadOf (lcnOf (sliceCid a)))
      | .dram =>
        let die := (a - 0x4000000000) / 2 ^ 33
        if die == dieOf b.lcn then none else some (die * 36 + Config.dramQuad (a / 64) % 36)
      | _ => none

/-- R268: whether a packet of another burst of the same core is being injected, flit by flit. -/
def behindPacket (s : State) (b : Burst) : Bool :=
  s.bursts.any (fun x => x.lcn == b.lcn && x.id != b.id && x.stage == 1 && x.beats != 0)

/-- R268, R272: the time at which a burst tries again to be injected; none when its first flit can go now. -/
def injectLater (s : State) (b : Burst) : Option Nat :=
  if s.time < (coreAt s b.lcn).linkFree then some (coreAt s b.lcn).linkFree
  else if behindPacket s b || (burstPort s b).any (fun p => (grantPermit s p .data).isNone) then some (s.time + Config.unitsPerTick)
  else none

/-- R268, R272: go on when a burst can be injected, else try again. -/
def whenClear (b : Burst) (s : State) (k : State → State) : State :=
  match injectLater s b with
  | some t => atTime t (.burstPerform b.id) s
  | none => k s

/-- R268, R272: the next flit of a packet to another die goes when a permit is free; the packet arrives `d` ticks after its last flit. -/
def nextFlit (b : Burst) (port d : Nat) (s : State) : State :=
  match grantPermit s port .data with
  | none => inTicks 1 (.burstPerform b.id) (putBurst b s)
  | some g =>
    let s := modCoreAt b.lcn (fun c => { c with linkFree := s.time + Config.unitsPerTick }) (takePermit port .data g s)
    if b.beats + 1 < b.flits then inTicks 1 (.burstPerform b.id) (putBurst { b with beats := b.beats + 1 } s)
    else inTicks d (.burstPerform b.id) (putBurst { b with stage := 2, beats := 0 } s)

/-- R268, R269, R272: a burst goes on the Promenade, `d` ticks from its destination; to another die it goes flit by flit. -/
def byPromenade (b : Burst) (d : Nat) (f : Option (FlowId × Nat)) (s : State) : State :=
  let b := { b with flow := f, circuit := false, beats := 0 }
  match burstPort s b with
  | none => packet { b with stage := 2 } d s
  | some p => nextFlit { b with stage := 1 } p d s

/-- R271: flow offsets wrap at 2^32. -/
def flowAdd (x n : Nat) : Nat := (x + n) % 2 ^ 32

/-- R271: whether a flow offset comes before another one of the same flow. -/
def flowBefore (x y : Nat) : Bool := x % 2 ^ 32 != y % 2 ^ 32 && decide ((y % 2 ^ 32 + 2 ^ 32 - x % 2 ^ 32) % 2 ^ 32 < 2 ^ 31)

/-- R271: the later of two flow offsets. -/
def flowLater (x y : Nat) : Nat := if flowBefore x y then y else x

/-- R274: transit ticks of a circuit. -/
def circuitTicks (a b : Nat) : Nat := if dieOf a == dieOf b then promTicks a b / 3 else 14

/-- R281: beats of a burst on a circuit: a header beat and its payload. -/
def Burst.allBeats (b : Burst) : Nat := 1 + ceilDiv b.len 64

/-- R274, R281, R282: a burst of a promoted flow goes on the circuit, a beat a tick once the bursts before it have, at most 8 KiB before
the release notice. -/
def byCircuit (b : Burst) (q i m : Nat) (f : Flow) (s : State) : State :=
  if s.time < f.circFree then atTime f.circFree (.burstPerform b.id) s
  else if !f.released && decide (8192 < f.onCircuit + 64 * b.allBeats) then inTicks 1 (.burstPerform b.id) s
  else
    let s := putFlow q i (some { f with
      count := f.count + b.len, offset := flowAdd f.offset b.len, onCircuit := f.onCircuit + 64 * b.allBeats
      circFree := s.time + b.allBeats * Config.unitsPerTick }) s
    inTicks (circuitTicks b.lcn m) (.circuitBeatArrival b.id)
      (putBurst { b with stage := 2, flow := some (f.flow, f.offset), circuit := true, beats := 0 } s)

/-- R278: whether an entry trips at a count. -/
def trips (cfg : Nat) (f : Flow) (count : Nat) : Bool :=
  bit cfg 24 && f.st == .counting && fld cfg 0 24 != 0 && decide (fld cfg 0 24 ≤ count)

/-- R276, R278, R283: a burst of entry `i` of quad `q`. -/
def byEntry (b : Burst) (q i m : Nat) (f : Flow) (s : State) : State :=
  let cfg := turncfg s q
  match f.st with
  | .demoting => inTicks 1 (.burstPerform b.id) s
  | .promoted => byCircuit b q i m f s
  | .counting | .promoting | .heldOff _ =>
    whenClear b s (fun s =>
      let count := if bit cfg 24 && (f.st == .counting || f.st == .promoting) then f.count + b.len else f.count
      let t := trips cfg f count
      let s := putFlow q i (some { f with count := count, offset := flowAdd f.offset b.len, st := if t then .promoting else f.st }) s
      let s := if t then atTime (tickEnd s) (.lanternLaunch q i) s else s
      byPromenade b (promTicks b.lcn m) (some (f.flow, f.offset)) s)

/-- R276: an entry as a flow takes it. -/
def Flow.fresh (f : FlowId) : Flow := ⟨f, 0, 0, .counting, 0, false, 0, 0, 0⟩

/-- R276: a labelled burst passes its quad's turnstile. -/
def passTurnstile (b : Burst) (m : Nat) (s : State) : State :=
  let q := quadOf b.lcn
  let fid : FlowId := ⟨cidOf b.lcn, cidOf m, b.label⟩
  match entryOf s q fid with
  | some i => byEntry b q i m ((flowAt s q i).getD (Flow.fresh fid)) s
  | none =>
    match (if bit (turncfg s q) 24 then newEntry s q else none) with
    | none => whenClear b s (byPromenade b (promTicks b.lcn m) none)
    | some i => byEntry b q i m (Flow.fresh fid) s

/-- R382: a request to another package can leave, must wait for its cap, or fails. -/
def toPeer (pkg pa n : Nat) (s : State) (go wait fail : State → State) : State :=
  if !reachable s pkg pa then fail s else if peerRoom s pkg n then go (peerTake pkg n s) else wait s

/-- R382: ticks after which a request without a response has failed. -/
def remoteLimit : Nat := 1200000

/-- R382: whether another package ever answers is open: a burst that it does not answer times out. -/
def burstLeaves (b : Burst) (t : Nat) (s : State) : State :=
  let u := s.free
  let p := if b.stage == 0 then b.src.headD ⟨0, 0, 0⟩ else b.dst.headD ⟨0, 0, 0⟩
  let s := byStation (pkgOf p.pa) p.pa u { s with free := u + 1 }
  if Config.remoteSilent u then inTicks remoteLimit (.remoteTimeout b.id) s
  else if b.stage == 0 then inTicks t (.burstPerform b.id) s
  else packet b t s

/-- R268, R276: a burst whose bytes are at hand is injected, unless it stays in its core's own slice; one of which flits have gone, or that
has its place in its flow already, goes on. -/
def inject (b : Burst) (s : State) : State :=
  let p := b.dst.headD ⟨0, 0, 0⟩
  let m := burstCore s b
  let d := (m.map (promTicks b.lcn)).getD (halves s b.lcn b.dst).1
  if b.beats != 0 then
    match burstPort s b with
    | some q => nextFlit b q d s
    | none => byPromenade b d b.flow s
  else if b.flow.isSome then whenClear b s (byPromenade b d b.flow)
  else if pkgOf p.pa != pkgId s then
    whenClear b s (fun s =>
      toPeer (pkgOf p.pa) p.pa b.len s (fun s => burstLeaves { b with stage := 2 } d (putBurst { b with stage := 2 } s))
        (inTicks 1 (.burstPerform b.id)) (burstFails b 0xA0 (BitVec.ofNat 64 (pkgOf p.pa))))
  else
    match m with
    | some m => if b.label == 0 then whenClear b s (byPromenade b d none) else passTurnstile b m s
    | none =>
      if regionOf (localOf p.pa) == .slice then soon (.burstPerform b.id) (putBurst { b with stage := 2 } s)
      else whenClear b s (byPromenade b d none)

/-- R219: ticks that a burst's read takes there and back. -/
def readTicks (s : State) (b : Burst) : Nat × Nat := if isHome b.srcVa b.len then (0, 0) else halves s b.lcn b.src

/-- R379, R382: a burst's source is read at its place: the bytes come back half the time later. -/
def readBurst (b : Burst) (s : State) : State :=
  let p := b.src.headD ⟨0, 0, 0⟩
  let back (bs : List Byte) (s : State) : State :=
    inTicks (readTicks s b).2 (.burstPerform b.id) (putBurst { b with bytes := bs, stage := 1 } s)
  if pkgOf p.pa != pkgId s then
    let u := s.free
    let s := { s with free := u + 1 }
    if holed b.src || Config.remoteRefuses u then
      burstFails b 0xA2 (BitVec.ofNat 64 b.srcVa) (peerGive (pkgOf p.pa) b.len s)
    else
      back ((List.range b.len).map (Config.remoteByte u))
        (inTicks (readTicks s b).2 (.ualinkResponse (pkgOf p.pa) b.len ((readTicks s b).1 + (readTicks s b).2)) s)
  else if b.src.any (fun p => spanBad s (localOf p.pa) p.len) then burstFails b 0x6B (BitVec.ofNat 64 b.srcVa) s
  else back (readPieces s b.src) s

/-- R271, R282: whether earlier bytes of a burst's flow are still on the Promenade or held at the far core. -/
def behindFlow (s : State) (b : Burst) : Bool :=
  b.flow.any (fun f =>
    s.bursts.any (fun x => !x.circuit && x.flow.any (fun g => g.1 == f.1 && flowBefore g.2 f.2)) ||
    s.landings.any (fun l => l.flow == f.1 && l.held.any (fun x => x.flow.any (fun g => flowBefore g.2 f.2))))

/-- R382: a burst performs in another package, or is refused there. -/
def landRemote (b : Burst) (pkg : Nat) (s : State) : State :=
  let u := s.free
  let s := { s with free := u + 1 }
  if holed b.dst || Config.remoteRefuses u then burstFails b 0xA2 (BitVec.ofNat 64 b.va) (peerGive pkg b.len s)
  else
    let h := halves s b.lcn b.dst
    let s := inTicks h.2 (.ualinkResponse pkg b.len (h.1 + h.2)) s
    settleCommand b.lcn b.engine (burstGone b (countBurst b s))

/-- R109, R112: whether a burst may perform as the last write of a copy under the release flag: every other burst of the command has
performed, and the release may. -/
def burstReleases (s : State) (b : Burst) : Bool :=
  match b.rel with
  | none => true
  | some pod => s.bursts.all (fun x => x.id == b.id || x.uid != b.uid) && mayRelease s b.taskid b.uid pod

/-- R257: a burst goes on from where it is: its bytes are read, it is injected, or it performs. One to a unit in motion waits
(R375), and so does one behind earlier bytes of its flow. -/
def burstStep (b : Burst) (s : State) : State :=
  let moves (ps : List Piece) : Bool := ps.any (fun p => pkgOf p.pa == pkgId s && inMotion s (localOf p.pa) p.len)
  match b.stage with
  | 0 => if moves b.src then inTicks 1 (.burstPerform b.id) s else readBurst b s
  | 1 => inject b s
  | _ =>
    if b.circuit then s
    else if moves b.dst || behindFlow s b || !burstReleases s b then inTicks 1 (.burstPerform b.id) s
    else
      let p := b.dst.headD ⟨0, 0, 0⟩
      if pkgOf p.pa != pkgId s then landRemote b (pkgOf p.pa) s else performBurst b s

/-- R257, R272 -/
def execBurstPerform (s : State) : Out :=
  match s.happening with
  | .burstPerform id =>
    .next (match s.bursts.find? (fun b => b.id == id) with
      | none => s
      | some b => burstStep b s)
  | .permitReturn port c shared => onQuad port s (returnPermit port c shared)
  | _ => .next s

/-! ### Issuing bursts (R114, R257) -/

/-- Two pieces that follow each other within 4 KiB as one. -/
def joinPiece (p : Piece) : List Piece → List Piece
  | [] => [p]
  | q :: r => if p.pa + p.len == q.pa && p.key == q.key && q.pa % 4096 != 0 then ⟨p.pa, p.len + q.len, p.key⟩ :: r else p :: q :: r

/-- R257, R373: the pieces of a copy's span, or the cause of the first byte that fails and its address, or the detail of a cause
that has its own. -/
def copyPieces (s : State) (n : Nat) (c : Context) (k : AccessKind) : List (Nat × Nat) → Except (BitVec 8 × Nat) (List Piece)
  | [] => .ok []
  | x :: r =>
    match translate s n c (x.1 % 2 ^ 64) x.2 k 1 with
    | .fail e v => .error (e, if e == 0xA0 || e == 0xB1 then v.toNat else x.1 % 2 ^ 64)
    | .ok p =>
      match copyPieces s n c k r with
      | .error f => .error f
      | .ok ps => .ok (joinPiece p ps)

/-- R53, R114: whether pieces in the slice of core `n` stall on a watermark of the context, but that of channel `own`, or on a preload
of its task. -/
def copyStalls (s : State) (n : Nat) (c : Context) (own : Option Nat) (ps : List Piece) : Bool :=
  ps.any (fun p =>
    let a := remapLocal s (localOf p.pa)
    let lo := a % 0x400000
    pkgOf p.pa == pkgId s && regionOf a == .slice && sliceCid a == cidOf n &&
      ((List.range 8).any (fun i => own != some i && (c.marks.getD i Watermark.reset).stalls lo (lo + p.len)) ||
        ((coreAt s n).preloads.filter (fun q => c.isTask q.entry.task.taskid)).any (fun q => q.stalls lo (lo + p.len))))

/-- R373, R379, R382, R390: a running command fails; `va` is the address, or what the cause's own detail is; `addr` is the address that the
record concerns. The faulting burst writes nothing. -/
def copyFault (n : Nat) (e : Engine) (r : Running) (code : BitVec 8) (va addr : Nat) (s : State) : State :=
  let k := r.cmd
  let s := match r.part with
    | some w => (s.bursts.filter (fun b => b.whole.group == w.group)).foldl (fun s b => burstGone b s) s
    | none => s
  let s := if [0x6B#8, 0xA0#8, 0xA2#8, 0xB1#8].contains code then failTaskAt k.taskid addr code (BitVec.ofNat 64 va) k.order s
    else failTaskAt k.taskid addr 0x80 (copyDetail k.ch va) k.order s
  settleCommand n e (faultCommand n e k.taskid k.ch s)

/-- R257: the burst that a command issues next: the one that it is issuing in parts, or one to the end of the row or of the 512 bytes of
its destination `d`. -/
def Running.burst (r : Running) (id d : Nat) : Whole := r.part.getD ⟨id, d, min (r.cmd.row - r.off) (512 - d % 512), 0⟩

/-- R257: what is left of a burst once `n` more of its bytes have been issued. -/
def Whole.rest (w : Whole) (n : Nat) : Option Whole := if w.done + n < w.len then some { w with done := w.done + n } else none

/-- R257: the command after a burst, or a part of one, of `n` bytes. -/
def Running.next (r : Running) (n : Nat) : Running :=
  let r := { r with outstanding := r.outstanding + 1 }
  if r.off + n < r.cmd.row then { r with off := r.off + n }
  else
    match bump r.idx (r.cmd.staging.n.drop 1) with
    | some i => { r with idx := i, off := 0 }
    | none => { r with issued := true }

/-- R257, R258: a burst leaves its engine, which issues its next one in a later cycle, at 256 bytes per cycle. -/
def sendBurst (n : Nat) (e : Engine) (r : Running) (b : Burst) (s : State) : State :=
  let s := modRunning n e (fun r => { r.next b.len with part := b.whole.rest b.len }) { s with bursts := s.bursts ++ [b], nextId := s.nextId + 1 }
  let p := b.src.headD ⟨0, 0, 0⟩
  let s := if b.stage == 0 && pkgOf p.pa != pkgId s then burstLeaves b (readTicks s b).1 s
    else inTicks (if b.stage == 0 then (readTicks s b).1 else 0) (.burstPerform b.id) s
  if (r.next b.len).issued then s
  else atTime (s.time + max 1 (ceilDiv b.len 256) * (coreAt s n).unit) (.copyBurst n e) s

/-- Bytes of a span that go by the route of its first piece (R26, R284). -/
def routeLen (s : State) (ps : List Piece) : Nat :=
  match ps with
  | [] => 0
  | p :: _ => ((ps.takeWhile (fun q => q.route s == p.route s)).map Piece.len).sum

/-- R26, R257, R284: how many of the `len` bytes that a command moves next go by one route on either side. -/
def burstLen (s : State) (fill : Bool) (sp dp : List Piece) (len : Nat) : Nat :=
  min len (min (if fill then len else routeLen s sp) (routeLen s dp))

/-- The first `n` bytes of a span. -/
def takePieces : Nat → List Piece → List Piece
  | _, [] => []
  | n, p :: r => if n == 0 then [] else if n < p.len then [{ p with len := n }] else p :: takePieces (n - p.len) r

/-- R114, R257, R390: the next burst of a running command, or the next part of one: its addresses, its translation, its waits. -/
def nextBurst (n : Nat) (e : Engine) (r : Running) (c : Context) (s : State) : State :=
  let k := r.cmd
  let g := k.staging
  let d := nestAddr g.dst r.idx g.ds r.off
  let a := nestAddr g.src r.idx g.ss r.off
  let w := r.burst s.nextId d
  let left := w.len - w.done
  match (if g.fill then .ok [] else copyPieces s n c .read (chunks a left)), copyPieces s n c .write (chunks d left) with
  | .error f, _ => copyFault n e r f.1 f.2 a s
  | _, .error f => copyFault n e r f.1 f.2 d s
  | .ok sa, .ok da =>
    let len := burstLen s g.fill sa da left
    let sp := takePieces len sa
    let dp := takePieces len da
    match erasedKey s (sp ++ dp) with
    | some x => copyFault n e r 0xB1 x (if (erasedKey s sp).isSome then a else d) s
    | none =>
      if copyStalls s n c none sp || copyStalls s n c (some (chanIdx e k.ch)) dp then inTicks 1 (.copyBurst n e) s
      else
        let b : Burst := {
          id := s.nextId, lcn := n, engine := e, ch := k.ch, taskid := k.taskid, uid := r.uid, order := k.order, cls := k.cls
          label := g.label.toNat, bind := k.bind, src := sp, srcVa := a, va := d, len := len, dst := dp, beats := 0
          bytes := if g.fill then List.replicate len 0 else [], stage := if g.fill then 1 else 0, flow := none, circuit := false
          rel := if k.rel && (r.next len).issued then some (k.scope == .pod) else none
          whole := w, last := (w.rest len).isNone }
        let s := (chunks d len).foldl (fun s x => keepLeaf n c (x.1 % 2 ^ 57) s) s
        let s := if g.fill then s else (chunks a len).foldl (fun s x => keepLeaf n c (x.1 % 2 ^ 57) s) s
        let p := sp.headD ⟨pkgId s * 2 ^ 46, 0, 0⟩
        if pkgOf p.pa == pkgId s then sendBurst n e r b s
        else toPeer (pkgOf p.pa) p.pa len s (sendBurst n e r b) (inTicks 1 (.copyBurst n e)) (copyFault n e r 0xA0 (pkgOf p.pa) a)

/-- R112, R257: the engine's next burst; an empty command has none, and one whose context is lost issues no more. -/
def copyStep (n : Nat) (e : Engine) (s : State) : State :=
  match ((coreAt s n).engine e).running with
  | none => s
  | some r =>
    if !copyOrdered s r then inTicks 1 (.copyBurst n e) s
    else if r.issued then settleCommand n e s
    else
      match ctxOf s r.cmd.taskid with
      | none => settleCommand n e (modRunning n e (fun r => { r with issued := true }) s)
      | some c => nextBurst n e r (c.putStw 2 1 (b2n r.cmd.priv)) s

/-- R257 -/
def execCopyBurst (s : State) : Out :=
  match s.happening with
  | .copyBurst n e => onCore n s (copyStep n e)
  | _ => .next s

/-! ### Promotion (R278, R281 to R283) -/

/-- R278: whether the turnstile has launched a lantern in this tick. -/
def launchedNow (s : State) (q : Nat) : Bool :=
  s.lanterns.any (fun l => l.launched == tickNow s &&
    (match l.owner with
      | .flow q' _ => q' == q
      | .handle _ _ => false))

/-- R278: whether a lower entry of the turnstile has tripped and waits for its launch. -/
def lowerLaunch (s : State) (q i : Nat) : Bool :=
  s.agenda.any (fun e =>
    match e.2 with
    | .lanternLaunch q' j => q' == q && decide (j < i) && decide (e.1 ≤ s.time)
    | _ => false)

/-- R278: the lantern of a promoting entry, one per tick in ascending entry number. -/
def launchFlow (q i : Nat) (s : State) : State :=
  match flowAt s q i with
  | none => s
  | some f =>
    if f.st != .promoting || s.lanterns.any (fun l => l.owner == .flow q i) then s
    else if launchedNow s q || lowerLaunch s q i then inTicks 1 (.lanternLaunch q i) s
    else launch (.flow q i) (lcnOf f.flow.src) (lcnOf f.flow.dst) f.flow.label s

/-- R278 -/
def execLanternLaunch (s : State) : Out :=
  match s.happening with
  | .lanternLaunch q i => onQuad q s (launchFlow q i)
  | _ => .next s

/-- R271: the trunk port whose CTL reserve the mark of a flow takes its permit from. -/
def markPort (f : FlowId) : Option Nat := if dieOf (lcnOf f.src) == dieOf (lcnOf f.dst) then none else some (quadOf (lcnOf f.dst))

/-- R271, R281: whether the acknowledgement of a lantern waits: the burst that the source is injecting is not whole yet, or the mark has
no permit of the CTL reserve. -/
def markWaits (s : State) : CircuitOwner → Bool
  | .handle _ _ => false
  | .flow q i =>
    match flowAt s q i with
    | none => false
    | some f =>
      s.bursts.any (fun x => x.lcn == lcnOf f.flow.src && x.stage == 1 && x.beats != 0) ||
        (markPort f.flow).any (fun p => !reservedFree s p .ctl)

/-- R271, R281: a promotion lantern is acknowledged: the flow goes to the circuit, and its mark is sent behind the burst that is being
injected. -/
def promote (q i : Nat) (s : State) : State :=
  match flowAt s q i with
  | none => releaseOwner (.flow q i) s
  | some f =>
    let n := lcnOf f.flow.src
    let t := linkStart s n
    let s := putFlow q i (some { f with
      st := .promoted, mark := f.offset, released := false, onCircuit := 0, committed := f.offset, circFree := t + Config.unitsPerTick }) s
    let s := modCoreAt n (fun c => { c with linkFree := t + Config.unitsPerTick }) s
    let s := match markPort f.flow with
      | some p => takePermit p .ctl false s
      | none => s
    atTime (t + promTicks n (lcnOf f.flow.dst) * Config.unitsPerTick) (.markArrival f.flow f.offset) s

/-- R261, R262: a COPEN lantern is acknowledged: the handle opens and its lease begins; or a moved circuit is whole again (R302). -/
def openHandle (t h : Nat) (l : Lantern) (s : State) : State :=
  match ctxOf s t with
  | none => releaseOwner (.handle t h) s
  | some c =>
    let v := c.handle h
    match v.st with
    | .pending =>
      let e := tickNow s + v.lease
      let s := modTask t (Context.setHandle h { v with st := .opened, back := l.back, lease := e }) s
      soon (.streamStart t h) (atTime (e * Config.unitsPerTick) (.circuitLeaseExpiry t h) s)
    | .opened | .closing => soon (.streamStart t h) s
    | _ => releaseOwner (.handle t h) s

/-- R281 -/
def execLanternAck (s : State) : Out :=
  match s.happening with
  | .lanternAck id =>
    .next (match s.lanterns.find? (fun l => l.id == id) with
      | none => s
      | some l =>
        if l.st != .ack then s
        else if markWaits s l.owner then inTicks 1 (.lanternAck id) s
        else
          let s := { s with lanterns := s.lanterns.filter (fun x => x.id != id) }
          match l.owner with
          | .flow q i => promote q i s
          | .handle t h => openHandle t h l s)
  | _ => .next s

/-! ### Landing (R282, R386) -/

/-- The landing entry of a flow. -/
def landingOf (s : State) (f : FlowId) : Option Landing := s.landings.find? (fun l => l.flow == f)

/-- Replace a landing entry. -/
def putLanding (l : Landing) (s : State) : State := { s with landings := s.landings.map (fun x => if x.flow == l.flow then l else x) }

/-- Remove the landing entry of a flow. -/
def dropLanding (f : FlowId) (s : State) : State := { s with landings := s.landings.filter (fun x => x.flow != f) }

/-- R386: the ticks a notice takes from the far core of a flow. -/
def noticeTicks (f : FlowId) : Nat := promTicks (lcnOf f.dst) (lcnOf f.src)

/-- R282, R386: a circuit burst performs; each 4 KiB segment of flow offset that is complete brings a commit notice. -/
def landBurst (b : Burst) (s : State) : State :=
  match b.flow with
  | none => s
  | some f =>
    let s := performBurst b s
    match landingOf s f.1 with
    | none => s
    | some l =>
      let p := flowAdd f.2 b.len
      let l' := { l with upTo := p, notified := flowLater l.notified p }
      let s := putLanding l' s
      if flowBefore l.notified p && l.notified / 4096 != p / 4096 then inTicks (noticeTicks f.1) (.commitNotice l.q l.entry (p / 4096 * 4096)) s else s

/-- R282: the landing entry performs what it holds in flow order, and the release notice is sent. -/
def releaseLanding (l : Landing) (m : Nat) (s : State) : State :=
  let s := putLanding { l with marked := true, held := [], upTo := m, notified := m, buffer := 0 } s
  inTicks (noticeTicks l.flow) (.releaseNotice l.flow) (l.held.foldl (fun s b => soon (.circuitBeatArrival b.id) s) s)

/-- R283: whether an entry's flow has its circuit. -/
def onItsCircuit (s : State) (l : Landing) : Bool :=
  (flowAt s l.q l.entry).any (fun f => f.flow == l.flow && (f.st == .promoted || f.st == .demoting || f.st == .promoting))

/-- R271, R282: the mark arrives behind the earlier bursts of its flow. A landing entry whose circuit has failed meanwhile is gone
after its release (R391). -/
def markArrives (f : FlowId) (m : Nat) (s : State) : State :=
  match landingOf s f with
  | none => s
  | some l =>
    if s.bursts.any (fun b => !b.circuit && b.flow.any (fun g => g.1 == f && flowBefore g.2 m)) then
      inTicks 1 (.markArrival f m) s
    else
      let s := releaseLanding l m s
      if onItsCircuit s l then s else dropLanding f s

/-- R282 -/
def execMarkArrival (s : State) : Out :=
  match s.happening with
  | .markArrival f m => .next (markArrives f m s)
  | _ => .next s

/-- R282: whether an earlier burst of the flow is still on the circuit. -/
def behindCircuit (s : State) (b : Burst) : Bool :=
  b.flow.any (fun f => s.bursts.any (fun x =>
    x.circuit && x.flow.any (fun g => g.1 == f.1 && flowBefore g.2 f.2) &&
      !s.landings.any (fun l => l.held.any (fun y => y.id == x.id))))

/-- R282, R386, R391: a burst is at its landing entry whole: it performs, or is held until the mark has arrived. One that was held by an
entry which has gone since its mark released it performs. -/
def burstLands (b : Burst) (s : State) : State :=
  if behindCircuit s b || !burstReleases s b then inTicks 1 (.circuitBeatArrival b.id) s
  else
    match b.flow.bind (fun f => landingOf s f.1) with
    | none => performBurst b s
    | some l => if l.marked then landBurst b s else putLanding { l with held := l.held ++ [b] } s

/-- R282: one more beat stands in the landing buffer while the mark has not arrived. -/
def bufferBeat (b : Burst) (s : State) : State :=
  match b.flow.bind (fun f => landingOf s f.1) with
  | none => s
  | some l => if l.marked then s else putLanding { l with buffer := l.buffer + 64 } s

/-- R281, R282: a beat of a burst arrives; after the last one the burst lands. -/
def beatArrives (b : Burst) (s : State) : State :=
  if !b.circuit then s
  else if b.beats < b.allBeats then
    let b := { b with beats := b.beats + 1 }
    let s := bufferBeat b (putBurst b s)
    if b.beats < b.allBeats then inTicks 1 (.circuitBeatArrival b.id) s else burstLands b s
  else burstLands b s

/-- R282 -/
def execCircuitBeatArrival (s : State) : Out :=
  match s.happening with
  | .circuitBeatArrival id =>
    .next (match s.bursts.find? (fun b => b.id == id) with
      | none => s
      | some b => beatArrives b s)
  | _ => .next s

/-- R282 -/
def execReleaseNotice (s : State) : Out :=
  match s.happening with
  | .releaseNotice fid =>
    let q := quadOf (lcnOf fid.src)
    .next (match entryOf s q fid with
      | some i => modFlow q i (fun f => if f.st == .promoted || f.st == .demoting then { f with released := true } else f) s
      | none => s)
  | _ => .next s

/-- R386 -/
def execCommitNotice (s : State) : Out :=
  match s.happening with
  | .commitNotice q i o =>
    onQuad q s (modFlow q i (fun f => if f.st == .promoted || f.st == .demoting then { f with committed := flowLater f.committed o } else f))
  | _ => .next s

/-! ### Windows and demotion (R276, R280, R283) -/

/-- R276, R280: an entry at the start of a window. -/
def Flow.window (f : Flow) : Option Flow :=
  match f.st with
  | .counting => if f.count == 0 then none else some { f with count := 0 }
  | .heldOff n => some { f with count := 0, st := if n ≤ 1 then .counting else .heldOff (n - 1) }
  | _ => some { f with count := 0 }

/-- R283: whether an entry is demoted at the start of a window. -/
def Flow.idle (f : Flow) : Bool := f.st == .promoted && f.count == 0

/-- R276, R283: a window starts at every turnstile. -/
def newWindow (s : State) : State :=
  let idle : List Happening := s.turnstiles.flatMap (fun t => (List.range t.2.length).filterMap (fun i =>
    if (t.2.getD i none).any Flow.idle then some (.flowDemotion t.1 i) else none))
  let s := idle.foldl (fun s h => soon h s) s
  inTicks 4096 .turnstileWindow { s with turnstiles := s.turnstiles.map (fun t => (t.1, t.2.map (fun o => o.bind Flow.window))) }

/-- R276 -/
def execTurnstileWindow (s : State) : Out :=
  match s.happening with
  | .turnstileWindow => .next (newWindow s)
  | _ => .next s

/-- R283: an idle promoted flow sends its teardown, which the far core answers. -/
def execFlowDemotion (s : State) : Out :=
  match s.happening with
  | .flowDemotion q i =>
    onQuad q s (fun s =>
      match flowAt s q i with
      | some f =>
        if f.st == .promoted then
          inTicks (2 * noticeTicks f.flow) (.teardownAck q i) (putFlow q i (some { f with st := .demoting }) s)
        else s
      | none => s)
  | _ => .next s

/-- R283: whether circuit bursts of a flow have yet to perform. -/
def circuitBusy (s : State) (f : FlowId) : Bool :=
  s.bursts.any (fun b => b.circuit && b.flow.any (fun g => g.1 == f)) || s.landings.any (fun l => l.flow == f && !l.marked)

/-- R283: the acknowledgement comes once every beat has performed: the slots are released and the entry counts again. -/
def tornDown (q i : Nat) (s : State) : State :=
  match flowAt s q i with
  | none => s
  | some f =>
    if f.st != .demoting then s
    else if circuitBusy s f.flow then inTicks 1 (.teardownAck q i) s
    else putFlow q i (some { f with st := .counting, count := 0 }) (dropLanding f.flow (releaseOwner (.flow q i) s))

/-- R283 -/
def execTeardownAck (s : State) : Out :=
  match s.happening with
  | .teardownAck q i => onQuad q s (tornDown q i)
  | _ => .next s

end Sys2Proof.Machine
end

