-- ==== Sys2Proof/Machine/Endings.lean ====
section
/-! DEFINITION. Join updates (R61, R363, R364), contexts that end (R358), budget overrun and rerun (R359), KACT (R360),
deferred traps (R335), migration (R302 to R304), and what the sequencer meets at a boundary (R131, R136, R144, R226, R296,
R345). -/

namespace Sys2Proof.Machine

/-! ### Join updates (R61, R363, R364) -/

/-- R363: the record of a join update that could not be made. -/
def joinRec (s : State) (n : Nat) (c : Context) (code val : Nat) : Rec :=
  contextRec s n c code 0 false true val ((c.task.map (fun t => t.desc.joinp.toNat)).getD 0)

/-- R61: the context that translates a task's JOINP: its own, at task privilege. -/
def joinView (c : Context) : Context := c.putStw 2 1 0

/-- R61, R363, R364: a join update of the task of context `c` on core `n`, made as one atomic access. A word in another package is
updated there, by a release at POD scope. -/
def joinUpdateAt (n : Nat) (c : Context) (op : AccessOp) (s : State) : State :=
  match c.task with
  | none => s
  | some t =>
    if t.desc.joinp == 0 then s
    else
      match translate s n (joinView c) t.desc.joinp.toNat 16 .atomic 16 with
      | .fail e v => record (joinRec s n c e.toNat v.toNat) s
      | .ok p =>
        if pkgOf p.pa != pkgId s || inMotion s (localOf p.pa) p.len then
          remoteUpdate t.taskid n c.order t.desc.joinp.toNat true p op t.desc.asid s
        else
          match memStop s op [p] t.desc.joinp.toNat with
          | some e => record (joinRec s n c e.1.toNat e.2.toNat) s
          | none => (performOp op [p] t.desc.joinp.toNat s).2

/-- R61 -/
def execJoinUpdate (s : State) : Out :=
  match s.happening with
  | .joinUpdate n t st =>
    onCore n s (fun s =>
      match ctxOf s t with
      | some c => joinUpdateAt n c (.joinEnd st.toNat) s
      | none => s)
  | _ => .next s

/-- R358: whether what an ended context of core `n` had under way is over. -/
def endDrained (s : State) (n t : Nat) : Bool :=
  let d := coreAt s n
  allPerformed s t && !d.engines.any (fun e => e.runs t) && !d.act.handles.any (fun h => d.act.isTask t && h.running)

/-- R302, R358: a migration of the context of core `n` that is under way is given up, since the context ends. -/
def stopMove (n : Nat) (s : State) : State :=
  if (coreAt s n).leaving.moving then
    unschedule (fun h => match h with
      | .migration a _ => a == n
      | _ => false) (modCoreAt n (fun d => { d with leaving := .no }) s)
  else s

/-- R358, R363: the join update of a task that a cause has ended, once its accesses have performed; then the core of an active
one swaps as after TEXIT. -/
def failedJoin (n t : Nat) (code : BitVec 8) (s : State) : State :=
  if !endDrained s n t then inTicks 1 (.failedJoinUpdate n t code) s
  else
    let f : AccessOp := .joinFail code.toNat
    let c := (coreAt s n).act
    if c.isTask t && c.ending.isSome then
      soon (.swap n) (modCoreAt n (fun d => { d with swapReq := some .ended }) (stopMove n (joinUpdateAt n c f s)))
    else
      match taskCopy s t with
      | none => s
      | some k => dropCopy t (joinUpdateAt n (taskView s k) f s)

/-- R363 -/
def execFailedJoinUpdate (s : State) : Out :=
  match s.happening with
  | .failedJoinUpdate n t code => onCore n s (failedJoin n t code)
  | _ => .next s

/-! ### Endings (R358) -/

/-- R358: a handle as its context ends: a running stream stops at its next segment commit; the rest is dropped. -/
def Handle.ended (h : Handle) : Handle :=
  if h.running then { h with st := .closing, streams := h.streams.take 1 } else if h.st == .free then h else h.freed

/-- R358: release the handles of the active context of core `n`. -/
def endHandles (n : Nat) (s : State) : State :=
  let c := (coreAt s n).act
  let s := (List.range 8).foldl (fun s h => if (c.handle h).running then s else releaseOwner (.handle c.tid h) s) s
  modCoreAt n (fun d => { d with act := { d.act with handles := d.act.handles.map Handle.ended } }) s

/-- R391: a release at POD scope that waits for acknowledgements which will never come is never performed. -/
def dropReleases (t : Nat) (s : State) : State :=
  let lost (b : Burst) : Bool := b.taskid == t && b.rel == some true
  let s' : State := { s with
    accesses := s.accesses.filter (fun a => !(a.taskid == t && !a.performed && a.podRelease s))
    bursts := s.bursts.filter (fun b => !lost b) }
  (s.bursts.filter lost).foldl (fun s b =>
    soon (.copyCommandComplete b.lcn b.engine) (modCoreAt b.lcn (Core.modEngine b.engine (fun g =>
      { g with running := g.running.map (fun r => if r.uid == b.uid then { r with outstanding := r.outstanding - 1 } else r) })) s)) s'

/-- R358 steps 2 to 4, R391: what the active context of core `n` has in flight completes, its unstarted commands are withdrawn, and
its handles, lease, subscriptions and remap entry are given back. -/
def endActive (n : Nat) (s : State) : State :=
  let s := endHandles n (settleResults n s)
  let t := (coreAt s n).act.tid
  let s := if (coreAt s n).act.ending.any (fun e => e.code == 0xA3) then dropReleases t s else s
  let s := modCoreAt n (fun d => (takeCommands t .c1 (takeCommands t .c0 d).2).2) s
  let s := modCoreAt n (fun d => { d with
    act := { d.act with
      psub := List.replicate 8 none
      wait := .none
      deferred := []
      task := d.act.task.map (fun k => { k with lease := 0 }) } }) s
  freeRemaps t s

/-- R358 -/
def execContextEnd (s : State) : Out :=
  match s.happening with
  | .contextEnd n code val =>
    onCore n s (fun s =>
      let c := (coreAt s n).act
      match c.ending with
      | none => s
      | some e =>
        let s := record (contextRec s n c code.toNat e.k e.defer true val.toNat e.addr) s
        soon (.failedJoinUpdate n c.tid code) (endActive n s))
  | _ => .next s

/-- End the active context of core `n`. -/
def endOn (n : Nat) (code : BitVec 8) (val : W64) (s : State) : State :=
  let s := makeCurrent n s
  endContext code val s.core.act.slotres false s

/-! ### Budget, loss and rerun (R359) -/

/-- R359: the budget of the active context of core `n` has run out: it is to be swapped out as overrun, or ends without a slot. A
swap already requested is made first (R56), unless the request is given up. -/
def overrun (n t : Nat) (s : State) : State :=
  let d := coreAt s n
  if d.act.isTask t && d.act.ending.isNone && d.act.remaining (tickNow s) == 0 then
    if d.swapReq.isSome then inTicks 1 (.budgetExhausted n t) s
    else if d.act.task.any (hasSlot s) then
      modCoreAt n (fun d => { d with swapReq := some .overrun }) (record (contextRec s n d.act 0x8E d.act.slotres false false 0 0) s)
    else endOn n 0xB7 (BitVec.ofNat 64 ((d.act.task.map Task.quad).getD 0)) s
  else s

/-- R359 -/
def execBudgetExhausted (s : State) : Out :=
  match s.happening with
  | .budgetExhausted n t => onCore n s (overrun n t)
  | _ => .next s

/-- R359: a task as it starts again. -/
def Task.again (t : Task) : Task :=
  { t with budget := t.desc.budget, lease := 0, slot := none, plist := PreloadList.empty, rerun := true }

/-- R344: the detail of a machine check that loses a context. -/
def lostDetail (n : Nat) (c : Context) (code : BitVec 8) : Nat :=
  if code == 0xB4 then cidOf n else if code == 0xB5 then c.pc.toNat else fld c.micpc.toNat 0 15

/-- Answers on their way to a context that is lost reach nothing. -/
def forgetAnswers (t : Nat) (s : State) : State :=
  { s with accesses := s.accesses.map (fun a => if a.taskid == t then { a with ret := .none } else a) }

/-- R359, R366: the active context of core `n` is lost: its task runs again, first in the shadow bank of the same core where that is
available; a second loss ends it. -/
def loseContext (n : Nat) (code : BitVec 8) (s : State) : State :=
  let c := (coreAt s n).act
  match c.task with
  | none => s
  | some t =>
    if c.ending.isSome || (coreAt s n).swapReq == some .exited then s
    else if t.rerun then endOn n 0x90 (BitVec.ofNat 64 code.toNat) s
    else
      let s := record (contextRec s n c code.toNat c.slotres false false (lostDetail n c code) 0) s
      let s := forgetAnswers t.taskid (releaseTask t (endHandles n s))
      let s := modCoreAt n (fun d => (takeCommands t.taskid .c1 (takeCommands t.taskid .c0 d).2).2) s
      let s := modCoreAt n (fun d => { d with
        act := Context.reset
        slot := SlotCtx.idle
        swapReq := none
        leaving := .no
        preloads := d.preloads.filter (fun p => p.entry.task.taskid != t.taskid) }) (stopMove n s)
      let s := if (coreAt s n).shadow == .loaded then park n s else s
      let k := t.again
      let e : Entry := ⟨k, k.desc.band, tickNow s, 0, none, true⟩
      if (coreAt s n).shadow == .free && available s n then giveShadow (quadOf n) n e s else enqueue t.quad e s

/-- R359 -/
def execContextLost (s : State) : Out :=
  match s.happening with
  | .contextLost n code => onCore n s (fun s => if [0xB4#8, 0xB5#8, 0xB6#8].contains code then loseContext n code s else s)
  | _ => .next s

/-! ### KACT (R360) -/

/-- R360: take an overrun entry out of a kiosk. -/
def dropOverrun (q t : Nat) (s : State) : State :=
  modKiosk q (fun k => { k with overrun := k.overrun.filter (fun e => e.task.taskid != t) }) s

/-- R360 -/
def execKactAddBudget (s : State) : Out :=
  match s.happening with
  | .kactAddBudget q t add =>
    onQuad q s (fun s =>
      match (kioskAt s q).overrunEntry t with
      | none => s
      | some e =>
        let k := { e.task with budget := e.task.budget + add.toNat * 256 }
        enqueue q { e with
          task := k
          since := tickNow s
          saved := e.saved.map (fun p => ({ p.1 with task := some k }, p.2)) } (dropOverrun q t s))
  | _ => .next s

/-- R360: end the task of an entry that is in no bank, by its join update alone. -/
def killEntry (e : Entry) (s : State) : State :=
  giveBack (e.task.quad * 4) ((e.saved.map Prod.fst).getD (taskView s e.task)) 0x8F s

/-- R360: whether a context holds a task of kiosk `q`. -/
def Context.heldBy (q t : Nat) (c : Context) : Bool := c.task.any (fun k => k.taskid == t && k.quad == q)

/-- R360: end a task that kiosk `q` holds, wherever it is. -/
def killTask (q t : Nat) (s : State) : State :=
  match (kioskAt s q).waitingEntry t with
  | some e => killEntry e (modKiosk q (Kiosk.without t) s)
  | none =>
    match (kioskAt s q).overrunEntry t with
    | some e => killEntry e (dropOverrun q t s)
    | none =>
      match (allCores s).find? (fun d => d.2.act.heldBy q t) with
      | some d => if d.2.act.ending.isSome || d.2.swapReq == some .exited then s else endOn d.1 0x8F 0 s
      | none =>
        match (allCores s).find? (fun d => d.2.shadow != .free && d.2.shd.heldBy q t) with
        | none => s
        | some d =>
          if d.2.shadow == .loaded then endShadow d.1 0x8F 0 0 s
          else freeShadow d.1 (endHeld d.1 d.2.shd 0x8F 0 0 s)

/-- R360 -/
def execKactKill (s : State) : Out :=
  match s.happening with
  | .kactKill q t => onQuad q s (killTask q t)
  | _ => .next s

/-- R360 -/
def execKactRerun (s : State) : Out :=
  match s.happening with
  | .kactRerun q t =>
    onQuad q s (fun s =>
      match (kioskAt s q).overrunEntry t with
      | none => s
      | some e =>
        let s := freeSaveSlot e.task (dropOverrun q t s)
        let k := { e.task.again with rerun := e.task.rerun }
        enqueue q { e with task := k, since := tickNow s, waited := 0, saved := none, head := true } s)
  | _ => .next s

/-! ### Deferred traps (R335, R342, R362) -/

/-- R342: the pending trap of the earliest instruction; of those of one instruction the lowest code. -/
def firstDeferred (l : List Deferred) : Option Deferred :=
  l.foldl (fun m x =>
    match m with
    | none => some x
    | some y => if x.order < y.order || (x.order == y.order && decide (x.code < y.code)) then some x else some y) none

/-- R335 -/
def execDeferredTrap (s : State) : Out :=
  match s.happening with
  | .deferredTrap n =>
    onCore n s (fun s =>
      match firstDeferred (coreAt s n).act.deferred with
      | none => s
      | some x =>
        let s := makeCurrent n s
        let s := modAct (fun c => { c with deferred := c.deferred.erase x, bundles := bundlesLeft s.core }) s
        let k := s.core.act.slotres
        let s := modSlot (fun y => { y with concern := x.addr }) s
        takeTrap x.code x.tval k k (slotUnitOf (slotWord (fetchBundle s.core) k).toNat) true s)
  | _ => .next s

/-! ### Migration (R302 to R304) -/

/-- R302: whether what the context of a core has under way has come to where it can be copied: its tiles and accumulators stand
still and its streams have stopped. Copies that have started run on at the source (R408). -/
def moveReady (d : Core) : Bool :=
  let clear (o : Option Nat) : Bool := o.all (fun x => decide (x ≤ d.cycle))
  let c := d.act
  c.tiles.all (fun t => clear t.wbusy && clear t.rbusy && t.wait.isNone) && c.accs.all (fun a => clear a.wbusy && clear a.rbusy && a.wait.isNone) &&
    !c.handles.any (fun h => h.running)

/-- R302: the bundles of a program that are copied: its range, or with PLEN 0 the whole memory. -/
def movedBundles (t : Task) (l : List (Nat × BitVec 128)) : List (Nat × BitVec 128) :=
  if t.plist.plen == 0 then l
  else l.filter (fun e => decide (t.plist.pdst ≤ e.1) && decide (e.1 < t.plist.pdst + t.plist.plen))

/-- R302: bundles of a program as they stand in a target's memory, replacing what stood there. -/
def landBundles (t : Task) (src dst : List (Nat × BitVec 128)) : List (Nat × BitVec 128) :=
  (movedBundles t src).foldl (fun l e => assocPut e.1 e.2 l) (dst.filter (fun e => !(movedBundles t dst).contains e))

/-- R302, R303: the ticks that the copy takes, its bound. -/
def moveTicks (t : Task) : Nat :=
  512 + ceilDiv (t.plist.fphi - t.plist.fplo + 16 * (if t.plist.plen == 0 then 16384 else t.plist.plen)) 64

/-- R302: the handles of a moved context: each path is given up and a new lantern is launched from the target; a CLOSING handle has
queued streams, which need one too. -/
def relaunch (m : Nat) (c : Context) (s : State) : State :=
  (List.range 8).foldl (fun s h =>
    let v := c.handle h
    let o : CircuitOwner := .handle c.tid h
    match v.st with
    | .opened | .pending | .closing => launch o m v.far c.staging0.label.toNat (releaseOwner o s)
    | _ => s) s

/-- R302: a handle on the target: an open circuit waits for its new lantern with its lease running. -/
def Handle.moved (h : Handle) : Handle := { h with running := false }

/-- R303: the remap entries after a move from core `n` to `m`: those of the task that lead to `n`, and a new one. -/
def remapsMoved (n m t : Nat) (l : List Remap) : List Remap :=
  (l.map (fun r => if r.taskid == t && r.new == n then { r with new := m } else r)) ++ [⟨n, m, t⟩]

/-- R302: a context as it stands on the target: what was busy has ended, and its tiles stay dirty (R58, R304). -/
def Context.landed (t : Task) (c : Context) : Context :=
  { c with
    task := some t
    handles := c.handles.map Handle.moved
    tiles := c.tiles.map (fun x => { x with wbusy := none, rbusy := none })
    accs := c.accs.map (fun a => { a with wbusy := none, rbusy := none, mmaBusy := false }) }

/-- R302 steps 4 and 5: the active context `c` of core `n`, of task `t`, goes to core `m`. -/
def moveContext (n m : Nat) (c : Context) (t : Task) (s : State) : State :=
  let d := coreAt s n
  let t := { t with quad := quadOf m }
  let foot := readHome s n t.plist.fplo (t.plist.fphi - t.plist.fplo)
  let own := d.preloads.filter (fun p => p.entry.task.taskid == t.taskid)
  let s := writeHome m t.plist.fplo foot s
  let s := setCore s n { d with
    act := Context.reset
    slot := SlotCtx.idle
    swapReq := none
    leaving := .no
    preloads := d.preloads.filter (fun p => p.entry.task.taskid != t.taskid) }
  let lines := if d.half then d.cstore1 else d.cstore0
  let s := modCoreAt m (fun e => { e with
    imem := landBundles t d.imem e.imem
    cstore0 := if e.half then lines else e.cstore0
    cstore1 := if e.half then e.cstore1 else lines
    preloads := e.preloads ++ own }) s
  let c := c.landed t
  let s := rehome (quadOf m) t.taskid (newRegion [] { s with remaps := remapsMoved n m t.taskid s.remaps })
  let s := modCoreAt m (Core.catchUp s.time) s
  let s := enterActive m 0 c (makeCurrent m s)
  let s := notifyFirmwareSubs m c (cidOf n) 2 0 (cidOf m) 0 s
  let s := if own.isEmpty then s else soon (.preload m) s
  let s := soon (.preloadRangeUnblock n) (selectSoon (quadOf n) (selectSoon (quadOf m) s))
  if (coreAt s n).shadow == .loaded && !(coreAt s n).preloads.any (fun p => p.item == 1) then swapIdle n s else s

/-- R301, R302: whether a core may be the target of a migration: it is available, holds no task and is no other's target. -/
def targetFree (s : State) (m : Nat) : Bool :=
  available s m && (coreAt s m).act.task.isNone && (coreAt s m).shadow == .free && !reserved s m

/-- R303: the remap entries in use, with one for each migration under way. -/
def remapsTaken (s : State) : Nat := s.remaps.length + ((allCores s).filter (fun e => e.2.leaving.moving)).length

/-- R59, R302 steps 1 and 2: the context of core `n` stops at a group boundary, its budget stands still, and 24 cycles pass. -/
def stopForMove (n m : Nat) (s : State) : State :=
  let d := coreAt s n
  let ends := s.time + 24 * d.unit
  let c := d.act.paused (tickNow s)
  let c := { c with split := if d.slot.issued then d.slot.wrote else c.split, bundles := bundlesLeft d }
  atTime ends (.migration n m) (setCore s n { (d.catchUp ends) with act := c, slot := SlotCtx.idle, leaving := .settling ends })

/-- R302 steps 3 and 4, R409: the context of core `n` is ready: its circuits are given up and reserved anew from the target, and it is
copied, in a time that ends within the bound of its migration. -/
def copyForMove (n m ends : Nat) (t : Task) (s : State) : State :=
  let x := departing n s
  let left := moveTicks t - (s.time - ends) / Config.unitsPerTick
  within left (.migration n m) (relaunch m x.1 (modCoreAt n (fun d => { d with act := x.1, leaving := .copying }) x.2))

/-- R301, R302: a migration of the context of core `n` to core `m` is decided: it begins at a group boundary. Without a target or a remap
entry the Lodge throttles. -/
def beginMove (n m : Nat) (s : State) : State :=
  let d := coreAt s n
  if !targetFree s m || Config.remapEntries ≤ remapsTaken s then
    soon (.thermalThrottle n) (modCoreAt n (fun d => { d with
      swapReq := if d.swapReq == some (.migrated m) then none else d.swapReq }) s)
  else if d.swapReq != some (.migrated m) then
    if d.swapReq.isSome then sometime (.migration n m) s else modCoreAt n (fun d => { d with swapReq := some (.migrated m) }) s
  else if d.act.group.isOpen then s
  else stopForMove n m s

/-- R302, R374: the migration of the context of core `n` to core `m` begins or goes on; its remap is a new version of the region table. -/
def migrate (n m : Nat) (s : State) : State :=
  let d := coreAt s n
  match d.act.task with
  | none => s
  | some t =>
    if d.act.ending.isSome then s
    else
      match d.leaving with
      | .no => beginMove n m s
      | .settling ends =>
        if d.swapReq != some (.migrated m) || decide (s.time < ends) then s
        else if moveReady d then copyForMove n m ends t s
        else inTicks 1 (.migration n m) (modCoreAt n (Core.catchUp (s.time + Config.unitsPerTick)) s)
      | .copying =>
        if d.swapReq != some (.migrated m) then s
        else if regionDrains s then inTicks 1 (.migration n m) s
        else moveContext n m d.act t s
      | .swap _ => sometime (.migration n m) s

/-- R302 -/
def execMigration (s : State) : Out :=
  match s.happening with
  | .migration n m =>
    onCore n s (fun s => if m < Config.numCores && dieOf m == dieOf n && m != n then migrate n m s else s)
  | _ => .next s

/-! ### At a bundle boundary (R131, R136, R144, R226, R296, R345) -/

/-- R131, R136 -/
def execResultArrival (s : State) : Out :=
  match s.happening with
  | .resultArrival n r => onCore n s (modCoreAt n (fun d => { d with act := d.act.arrive r }))
  | _ => .next s

/-- R226, R89: a matrix instruction or FADD32 of the active context of core `n` completes. -/
def completeOn (n i : Nat) (s : State) : State :=
  match (coreAt s n).act.completions.find? (fun m => m.mid == i) with
  | none => s
  | some m =>
    countGroups n (m.due.getD 0) m.level m.groups m.dets (modCoreAt n (fun d => { d with act := d.act.complete m }) s)

/-- R226 -/
def execMatrixComplete (s : State) : Out :=
  match s.happening with
  | .matrixComplete n i => onCore n s (completeOn n i)
  | _ => .next s

/-- R296: a stall bundle: it executes nothing, carries weight 0 and is counted. -/
def execStallBundle (s : State) : Out :=
  match s.happening with
  | .stallBundle n =>
    onCore n s (modCoreAt n (fun d =>
      { (d.pass 1) with act := { d.act with estall := d.act.estall + 1 }, cestall := d.cestall + 1 }))
  | _ => .next s

/-- R345: the bundle at the PC of the current core takes its lowest bundle fault. -/
def execIllegalBundle (s : State) : Out :=
  match s.happening with
  | .illegalBundle =>
    .next (match bundleFault (fetchBundle s.core) with
      | some f => takeTrap f.1 f.2 s.core.act.slotres s.core.act.slotres 7 false s
      | none => s)
  | _ => .next s

/-- R144: the slot being executed holds an unassigned OPC. -/
def execUnassignedOpcode (s : State) : Out :=
  match s.happening with
  | .unassignedOpcode => .next (trap 0x04 (BitVec.ofNat 64 (curWord s).toNat) s)
  | _ => .next s

/-! ### Barrier networks (R63 to R65) -/

/-- R63, R64, R65: every participant is released: the generation advances. The release of a POD identifier that another module counts
comes from there. -/
def execBarrierRelease (s : State) : Out :=
  match s.happening with
  | .barrierRelease z pl id =>
    let b := barrierAt s z pl id
    .next (if b.releasing != 0 then putBarrier { b with gen := b.gen + 1, releasing := b.releasing - 1 } s
      else if countedElsewhere s z id then putBarrier { b with gen := b.gen + 1 } s else s)
  | _ => .next s

/-- R64: the network and identifier that a BARCFG address configures. -/
def barcfgOf (a : Nat) : Option (Scope × Nat × Nat) :=
  let o := a % 0x1000
  if o < 0x100 || 0x180 ≤ o || o % 8 != 0 then none
  else
    let id := (o - 0x100) / 8
    if 0x1000000 ≤ a && a < 0x1120000 then some (.quad, (a - 0x1000000) / 0x1000, id)
    else if 0x2000000 ≤ a && a < 0x2008000 then some (.die, (a - 0x2000000) / 0x1000, id)
    else if 0x2100000 ≤ a && a < 0x2101000 then some (.pkg, 0, id)
    else if 0x2101000 ≤ a && a < 0x2102000 then some (.pod, 0, id)
    else none

/-- R64, R66: a BARCFG write takes effect before the arrivals of its tick: the count is cleared, a release that those began is taken
back, and they are counted against the new configuration. -/
def configureBarrier (a v : Nat) (z : Scope) (pl id : Nat) (s : State) : State :=
  let b := (barrierAt s z pl id).inTick (tickNow s)
  let s := putBarrier { b with count := 0, releasing := b.releasing - b.begun, fresh := 0, begun := 0 } (plainRegWrite a v s)
  (List.range b.fresh).foldl (fun s _ => barrierCount z pl id s) s

/-- R64 -/
def execBarcfgWrite (s : State) : Out :=
  match s.happening with
  | .barcfgWrite a v =>
    .next (match barcfgOf a with
      | none => s
      | some x => configureBarrier a v.toNat x.1 x.2.1 x.2.2 s)
  | _ => .next s

end Sys2Proof.Machine
end

