-- ==== Sys2Proof/Machine/HostPort.lean ====
section
/-! DEFINITION. The host port: writes and the ingress buffers of the dies (R117 to R119), reads (R118, R379), aging and draining
(R376). -/

namespace Sys2Proof.Machine

/-! ### Applying host writes (R117 to R119) -/

/-- R119: the runs of enabled bytes of a write from an address. -/
def enabledRuns (a : Nat) : List (Byte × Bool) → List (Nat × List Byte)
  | [] => []
  | (b, e) :: r =>
    let rest := enabledRuns (a + 1) r
    if e then
      match rest with
      | (x, bs) :: q => if x == a + 1 then (a, b :: bs) :: q else (a, [b]) :: rest
      | [] => [(a, [b])]
    else rest

/-- R117, R119: the enabled bytes of a host write are written. -/
def applyWrite (a : Nat) (bs : List Byte) (es : List Bool) (s : State) : State :=
  (enabledRuns a (bs.zip (es ++ List.replicate bs.length true))).foldl (fun s r => writeLocal 0 r.1 r.2 s) s

/-- R26, R117: the enabled bytes of a host write to a device physical address, here or in another package, under key slot 0
(DESIGN CHOICE, assumption 39). -/
def applyHost (a : Nat) (bs : List Byte) (es : List Bool) (tag : Nat) (s : State) : State :=
  if pkgOf a == pkgId s then applyWrite (localOf a) bs es s
  else (enabledRuns a (bs.zip (es ++ List.replicate bs.length true))).foldl
    (fun s r => remoteOp 0xFFFFFFFF 0 0 r.1 false ⟨r.1, r.2.length, 0⟩ (.store r.2) (.host tag false) 0 s) s

/-- R27: whether a host access of `n` bytes meets a hole. -/
def hostHole (a n : Nat) : Bool :=
  regionOf (localOf a) == .hole || regionOf (localOf (a + max n 1 - 1)) != regionOf (localOf a)

/-- R311, R375, R378: whether what stands at the host port is held because of the place it goes to. -/
def hostWaits (s : State) : HostOp → Bool
  | .write a bs _ _ => pkgOf a == pkgId s && inMotion s (localOf a) bs.length
  | .read a n _ => pkgOf a == pkgId s && inMotion s (localOf a) n
  | .kport _ _ => false

/-- R375: the host port tries again in the next tick what it holds. -/
def retryPort (s : State) : State := if s.agenda.any (fun e => e.2 == .portRetry) then s else inTicks 1 .portRetry s

/-- R375: the host port holds an operation until its place serves it; what arrived before number `k` comes first. -/
def holdAtPort (op : HostOp) (k : Nat) (s : State) : State :=
  let s := { s with hostHeld := s.hostHeld ++ [⟨op, k⟩] }
  if hostWaits s op then retryPort s else s

/-- R26, R118, R376: the answer to a host read; uncorrectable bytes and holes are answered with error status; one of another package is
carried there. -/
def answerRead (w : HostWaiting) (s : State) : State :=
  let a := localOf w.addr
  if hostHole w.addr w.len then hostRefused w.tag w.addr s
  else if pkgOf w.addr != pkgId s then remoteOp 0xFFFFFFFF 0 0 w.addr false ⟨w.addr, w.len, 0⟩ .load (.host w.tag true) 0 s
  else if spanBad s a w.len then hostRefused w.tag w.addr s
  else { s with answers := s.answers ++ [⟨w.tag, some (readLocal s 0 a w.len)⟩] }

/-- R118, R375: a host read is answered, or held while its place does not serve it. -/
def serveRead (w : HostWaiting) (s : State) : State :=
  if hostWaits s (.read w.addr w.len w.tag) then holdAtPort (.read w.addr w.len w.tag) 0 s else answerRead w s

/-- R40, R118: what waited behind an entry goes on. -/
def releaseWaiting (w : HostWaiting) (s : State) : State :=
  match w.kport with
  | some q => forwardHost q w.bytes s
  | none => serveRead w s

/-! ### The order of the host port (R117, R118) -/

/-- R117: whether a host write that arrived before number `k` still stands in a die's buffer. -/
def writesBefore (s : State) (k : Nat) : Bool := s.ingress.any (fun g => g.2.entries.any (fun e => decide (e.serial < k)))

/-- R117, R118: a write to memory without a buffer, or a read behind one, takes place. -/
def performHeld (op : HostOp) (s : State) : State :=
  match op with
  | .write a bs es tag => applyHost a bs es tag s
  | .read a n tag => answerRead ⟨tag, a, n, none, [], 0, tickNow s⟩ s
  | .kport q bs => forwardHost q bs s

/-- R117, R375: what the host port holds behind earlier writes, or for the place it goes to, goes on in the order of arrival. -/
def releaseHeld : List HostHeld → State → State
  | [], s => { s with hostHeld := [] }
  | h :: r, s =>
    if writesBefore s h.serial then { s with hostHeld := h :: r }
    else if hostWaits s h.op then retryPort { s with hostHeld := h :: r }
    else releaseHeld r (performHeld h.op s)

/-- R117, R303: the die whose slice a host access goes to. -/
def sliceDie (s : State) (a : Nat) : Nat := dieOf (lcnOf (sliceCid (remapLocal s a)))

/-- R117: the part of a write that lies in one aligned 64-byte block, and the rest. -/
def blockPart (a : Nat) (bs : List Byte) : Nat := min bs.length (64 - a % 64)

/-- R376: when the head of a die's buffer is to be looked at for its age. -/
def watchAge (die t : Nat) (s : State) : State := atTime (t * Config.unitsPerTick) (.ingressAgeExpiry die) s

/-- R117: a write to a slice enters its die's buffer. -/
def enterIngress (die a : Nat) (bs : List Byte) (es : List Bool) (s : State) : State :=
  let s := watchAge die (tickNow s + hostAge s die) s
  { modIngress die (fun g => { g with entries := g.entries ++ [⟨a, bs, es, tickNow s, none, s.hostSerial⟩] }) s with
    hostSerial := s.hostSerial + 1 }

/-- R41, R376: the registers that give the buffers back their room, whose writes wait for nothing: KPORT and HWCFG (assumption 39). -/
def portFree (a : Nat) : Bool := isKport a || (0x2000000 ≤ a && a < 0x2008000 && a % 0x1000 / 8 == 0x200 / 8)

/-- R117: a host write to memory without a buffer is a release of the host writes before it: it waits for them. -/
def hostElsewhere (a : Nat) (bs : List Byte) (es : List Bool) (tag : Nat) (s : State) : State :=
  if (writesBefore s s.hostSerial || !s.hostHeld.isEmpty) && !portFree (localOf a) || hostWaits s (.write a bs es tag) then
    holdAtPort (.write a bs es tag) s.hostSerial s
  else applyHost a bs es tag s

/-- R117, R118: a host write. What goes to a slice is taken by blocks of 64 bytes; a full buffer leaves the rest with the host port. -/
def hostWrite : Nat → Nat → List Byte → List Bool → Nat → State → State × Option HostOp
  | 0, _, _, _, _, s => (s, none)
  | f + 1, a, bs, es, tag, s =>
    let l := localOf a
    let n := blockPart l bs
    if pkgOf a == pkgId s && regionOf l == .slice && !hostHole a 1 then
      if bs.isEmpty then (s, none)
      else if Config.ingressSize ≤ (ingressAt s (sliceDie s l)).entries.length then (s, some (.write a bs es tag))
      else
        let s := enterIngress (sliceDie s l) a (bs.take n) (es.take n) s
        if bs.length ≤ n then (s, none) else hostWrite f (a + n) (bs.drop n) (es.drop n) tag s
    else if hostHole a bs.length then (writeRefused tag a s, none)
    else (hostElsewhere a bs es tag s, none)

/-- R118: a host read waits behind the writes that its die's buffer holds, and elsewhere behind those that wait before it. -/
def hostRead (a len tag : Nat) (s : State) : State :=
  let l := localOf a
  let w : HostWaiting := ⟨tag, a, len, none, [], 0, tickNow s⟩
  if pkgOf a == pkgId s && regionOf l == .slice then
    let die := sliceDie s l
    let n := unapplied s die
    if n == 0 then serveRead w s
    else inTicks (hostAge s die) (.hostRequestAgeExpiry die)
      (modIngress die (fun g => { g with waiting := g.waiting ++ [{ w with behind := n }] }) s)
  else if !s.hostHeld.isEmpty && !portFree l then holdAtPort (.read a len tag) s.hostSerial s
  else serveRead w s

/-- R40, R117, R118: the host port takes what has arrived; the rest of a write that a full buffer stops is given back. -/
def takeOp (op : HostOp) (s : State) : State × Option HostOp :=
  match op with
  | .write a bs es tag => hostWrite (bs.length + 1) a bs es tag s
  | .read a n tag => (hostRead a n tag s, none)
  | .kport q bs => (kportOp q bs s, none)

/-- R117: the host port goes on with what it holds for want of room, as far as there is room. -/
def drainPort : List HostOp → State → State
  | [], s => { s with hostPort := [] }
  | op :: r, s =>
    match takeOp op s with
    | (s, none) => drainPort r s
    | (s, some op) => { s with hostPort := op :: r }

/-- R117: something arrives at the host port; while it withholds credits, what arrives waits in order. -/
def hostArrives (op : HostOp) (s : State) : State := drainPort (s.hostPort ++ [op]) s

/-- R117, R375: the host port tries again what it holds. -/
def portRetries (s : State) : State :=
  let s := releaseHeld s.hostHeld s
  drainPort s.hostPort s

/-- R117 -/
def execHostWrite (s : State) : Out :=
  match s.happening with
  | .hostWrite a bs es tag => .next (hostArrives (.write a bs (es ++ List.replicate bs.length true) tag) s)
  | .portRetry => .next (portRetries s)
  | _ => .next s

/-- R118 -/
def execHostRead (s : State) : Out :=
  match s.happening with
  | .hostRead a len tag => .next (hostArrives (.read a len tag) s)
  | _ => .next s

/-- R40, R41, R117: a descriptor is written to KPORT. -/
def execKportWrite (s : State) : Out :=
  match s.happening with
  | .kportWrite q bs => onQuad q s (hostArrives (.kport q bs))
  | _ => .next s

/-! ### Applying buffered writes (R118) -/

/-- R117, R118: one entry of a die has been applied: those that waited for it alone go on, and the host port has room. -/
def oneApplied (die : Nat) (s : State) : State :=
  let ws := (ingressAt s die).waiting.map (fun w => { w with behind := w.behind - 1 })
  let s := modIngress die (fun g => { g with waiting := ws.filter (fun w => w.behind != 0) }) s
  portRetries ((ws.filter (fun w => w.behind == 0)).foldl (fun s w => releaseWaiting w s) s)

/-- R118: the entry at the head of a die's buffer performs. -/
def performHead (die : Nat) (s : State) : State :=
  match (ingressAt s die).entries with
  | [] => s
  | e :: r => oneApplied die (applyWrite (localOf e.addr) e.bytes e.enables (modIngress die (fun g => { g with entries := r }) s))

/-- R376: no task: what the die applies by itself has been claimed by none. -/
def noTask : Nat × Nat := (2 ^ 32, 0)

/-- R376, R378: the first `k` entries of a die's buffer perform, in arrival order. From one whose row is under test on they wait for it as
claimed entries do. -/
def applyFirst (die : Nat) : Nat → State → State
  | 0, s => s
  | k + 1, s =>
    match (ingressAt s die).entries with
    | [] => s
    | e :: _ =>
      if rowTested s (localOf e.addr) e.bytes.length then
        let s := modIngress die (fun g => { g with entries := claimEntries noTask (tickNow s + 1) (k + 1) g.entries }) s
        (List.range (k + 1)).foldl (fun s _ => inTicks 1 (.hostEntryPerform die) s) s
      else applyFirst die k (performHead die s)

/-- R376: every entry then in a die's buffer performs, in arrival order. -/
def applyAll (die : Nat) (s : State) : State := applyFirst die (ingressAt s die).entries.length s

/-- R118: a claimed entry performs once its row is not under test (R378); claimed entries stand before the others. -/
def execHostEntryPerform (s : State) : Out :=
  match s.happening with
  | .hostEntryPerform die =>
    onDie die s (fun s =>
      match (ingressAt s die).entries.head? with
      | none => s
      | some e =>
        if e.claimed.isNone then s
        else if rowTested s (localOf e.addr) e.bytes.length then inTicks 1 (.hostEntryPerform die) s
        else performHead die s)
  | _ => .next s

/-! ### Aging and draining (R376) -/

/-- R376: HWCFG.AUTO. -/
def hostAuto (s : State) (die : Nat) : Bool := bit (regRaw s (0x2000200 + die * 0x1000)) 32

/-- R376: the tick from which the head of a die's buffer has aged. -/
def agedAt (s : State) (die : Nat) : Option Nat :=
  match (ingressAt s die).entries with
  | [] => none
  | e :: _ => some (max e.tick (ingressAt s die).lastClaim + hostAge s die)

/-- R376: the die looks at the head of its buffer. -/
def ageIngress (die : Nat) (s : State) : State :=
  match agedAt s die with
  | none => s
  | some t =>
    if !hostAuto s die then s
    else if t ≤ tickNow s then
      let n := unapplied s die
      applyAll die (record { area := 5, event := 0x0502, tval := die, aux := n } s)
    else watchAge die t s

/-- R376 -/
def execIngressAgeExpiry (s : State) : Out :=
  match s.happening with
  | .ingressAgeExpiry die => onDie die s (ageIngress die)
  | _ => .next s

/-- R376: a held host request is refused. -/
def refuseHeld (die : Nat) (w : HostWaiting) (s : State) : State :=
  match w.kport with
  | some q => record { area := 5, event := 0x0501, tval := die, aux := q } s
  | none => record { area := 5, event := 0x0501, tval := die, aux := w.tag } { s with answers := s.answers ++ [⟨w.tag, none⟩] }

/-- R376: when the oldest host request that a die still holds is to be looked at. -/
def watchHeld (die : Nat) (s : State) : State :=
  match (ingressAt s die).waiting with
  | [] => s
  | w :: _ => atTime ((w.tick + hostAge s die) * Config.unitsPerTick) (.hostRequestAgeExpiry die) s

/-- R376: with AUTO clear, every host request that a die has held AGE ticks is refused. -/
def refuseAged (die : Nat) (s : State) : State :=
  if hostAuto s die then s
  else
    let old (w : HostWaiting) : Bool := decide (w.tick + hostAge s die ≤ tickNow s)
    let ws := (ingressAt s die).waiting
    watchHeld die ((ws.filter old).foldl (fun s w => refuseHeld die w s)
      (modIngress die (fun g => { g with waiting := ws.filter (fun w => !old w) }) s))

/-- R376 -/
def execHostRequestAgeExpiry (s : State) : Out :=
  match s.happening with
  | .hostRequestAgeExpiry die => onDie die s (refuseAged die)
  | _ => .next s

/-- R376: a write to HWCFG; DRAIN applies every entry then in the buffer, and what the buffer holds is looked at under the new AGE and
AUTO. -/
def execHwcfgDrain (s : State) : Out :=
  match s.happening with
  | .hwcfgDrain die v =>
    onDie die s (fun s =>
      let s := plainRegWrite (0x2000200 + die * 0x1000) v.toNat s
      soon (.hostRequestAgeExpiry die) (soon (.ingressAgeExpiry die) (if bit v.toNat 33 then applyAll die s else s)))
  | _ => .next s

end Sys2Proof.Machine
end

