-- ==== Sys2Proof/Machine/Power.lean ====
section
/-! DEFINITION. Rails and operating points (R90, R185, R293 to R295), boost leases (R297, R298), sensors, subscriptions and
thermal action (R187, R299 to R301), and the rack budget (R305, R392). -/

namespace Sys2Proof.Machine

/-! ### Rails and operating points (R90, R185, R293, R295) -/

/-- R90: the rails have settled, unless a later change of level has moved them on. -/
def execRailSettled (s : State) : Out :=
  match s.happening with
  | .railSettled n => onCore n s (modCoreAt n (fun d => if s.time < d.railEnds then d else { d with railEnds := 0 }))
  | _ => .next s

/-- R138, R295: the point in force on a core, which STW.OPPT of its active context shows. -/
def setPoint (k : Nat) (d : Core) : Core := { d with op := k, opMove := none, act := if d.act.task.isSome then d.act.putStw 5 3 k else d.act }

/-- R185: a request held during settling starts when the settling ends. -/
def startHeld (n : Nat) (s : State) : State :=
  match (coreAt s n).opHeld with
  | none => s
  | some k => requestOp n k (modCoreAt n (fun d => { d with opHeld := none }) s)

/-- R168, R185, R293: the transition of core `n` whose settling ends now switches the point; what has passed until then was at the point
before. -/
def settlePoint (n : Nat) (s : State) : State :=
  match (coreAt s n).opMove with
  | none => s
  | some m => if s.time < m.ends then s else startHeld n (modCoreAt n (fun d => setPoint m.target (d.catchUp s.time)) s)

/-- R293 -/
def execOpSettled (s : State) : Out :=
  match s.happening with
  | .opSettled n => onCore n s (settlePoint n)
  | _ => .next s

/-- R185: whether the transition of core `n` began in the present tick. -/
def beganNow (s : State) (n : Nat) : Bool :=
  let d := coreAt s n
  d.opMove.any (fun m => (m.ends - settleCycles d.op m.target * Config.cycleUnits m.target) / Config.unitsPerTick == tickNow s)

/-- R295, R298, R316: core `n`, running above point `k` or settling toward one above it, moves to `k` at once; a settling that the point
in force makes needless is abandoned. A transition already under way to `k` or below goes on; a request for one in the same tick follows
the move to `k`. -/
def lowerTo (n k : Nat) (s : State) : State :=
  let d := coreAt s n
  let below := d.opMove.any (fun m => decide (m.target ≤ k))
  if k < d.op && below && beganNow s n then
    startOp n k (modCoreAt n (fun d => { d with opHeld := d.opMove.map (fun m => m.target) }) s)
  else if k < d.op && below then s
  else if k < d.op then startOp n k s
  else if d.opMove.any (fun m => decide (k < m.target)) then
    let s := modCoreAt n (fun d => { d with opMove := none }) s
    if k == d.op then s else startOp n k s
  else s

/-- R294, R295 -/
def execPwrctlWrite (s : State) : Out :=
  match s.happening with
  | .pwrctlWrite n v =>
    onCore n s (fun s =>
      let k := opLim s n
      let s := plainRegWrite (pwrctl n) v.toNat s
      if opLim s n < k then lowerTo n (opLim s n) s else s)
  | _ => .next s

/-! ### Boost leases (R297, R298) -/

/-- The last sample of a sensor. -/
def sampleOf (s : State) (n : Nat) : Option Int := (s.samples.find? (fun x => x.1 == n)).map Prod.snd

/-- R32: the power limit in force, in mW. -/
def powerLimit (s : State) : Int := min 3000 s.rack.inForce * 1000

/-- R32, R297: whether the module's measured power leaves headroom below the limit; a power not yet measured leaves it (assumption 47). -/
def headroom (s : State) : Bool := (sampleOf s 0x810).all (fun v => decide (v < powerLimit s))

/-- R32, R295: OPLIM of core `n` falls by one point. -/
def lowerOne (n : Nat) (s : State) : State :=
  let k := opLim s n
  if k == 0 then s else lowerTo n (k - 1) (setReg (pwrctl n) (putFld (regRaw s (pwrctl n)) 10 3 (k - 1)) s)

/-- R32, R298: at a sample of the module's power above the limit the Lodge revokes every boost lease; where no core holds one it lowers
OPLIM of every core that runs a context by one point. DESIGN CHOICE (assumption 47). -/
def holdLimit (s : State) : State :=
  if (sampleOf s 0x810).all (fun v => decide (v ≤ powerLimit s)) then s
  else if (allCores s).any (fun e => e.2.act.leased) then
    (allCores s).foldl (fun s e => if e.2.act.leased then soon (.boostLeaseRevoke e.1) s else s) s
  else (allCores s).foldl (fun s e => if e.2.act.task.isSome then lowerOne e.1 s else s) s

/-- R297: BREQ's address. -/
def breq : Nat := 0x2500000

/-- R297 -/
def execBoostLeaseRequest (s : State) : Out :=
  match s.happening with
  | .boostLeaseRequest v =>
    let cid := fld v.toNat 0 11
    let ticks := fld v.toNat 16 32
    let u := s.free
    let s := setReg breq (cid + ticks * 2 ^ 16) { s with leaseAsk := some ⟨cid, ticks⟩, free := u + 1 }
    .next (within 24000 (.boostLeaseAnswer (Config.leaseGranted u) (Config.leaseTicks u)) s)
  | _ => .next s

/-- R298: the active context of core `n` holds a lease of a number of ticks from now on. -/
def grantTo (n ticks : Nat) (s : State) : State :=
  let now := tickNow s
  let s := modCoreAt n (fun d =>
    let c := d.act.paused now
    { d with act := { c with task := c.task.map (fun t => { t with lease := ticks }), runFrom := some now } }) s
  inTicks ticks (.boostLeaseEnd n (coreAt s n).act.tid) s

/-- R297: the answer to a request, for no more ticks than asked; a core without an active context is granted nothing. -/
def answerLease (granted : Bool) (ticks : Nat) (a : LeaseAsk) (s : State) : State :=
  let k := min ticks a.ticks
  let s := { s with leaseAsk := none }
  if granted && headroom s && populated a.cid && (coreAt s (lcnOf a.cid)).act.task.isSome && k != 0 then
    grantTo (lcnOf a.cid) k (setReg breq (a.cid + k * 2 ^ 16 + 2 ^ 61 + 2 ^ 62) s)
  else setReg breq (a.cid + a.ticks * 2 ^ 16 + 2 ^ 62) s

/-- R297 -/
def execBoostLeaseAnswer (s : State) : Out :=
  match s.happening with
  | .boostLeaseAnswer g t =>
    .next (match s.leaseAsk with
      | none => s
      | some a => answerLease g t a s)
  | _ => .next s

/-- R298: lease ticks left to a context at a tick. -/
def Context.leaseLeft (tick : Nat) (c : Context) : Nat :=
  match c.task with
  | none => 0
  | some t => t.lease - (match c.runFrom with | some f => tick - f | none => 0)

/-- R298, R300, R316: the lease of the active context of core `n` ends with `left` ticks unused; the core leaves OP7. -/
def endLease (n info left : Nat) (s : State) : State :=
  let s := modCoreAt n (fun d => { d with act := { d.act with task := d.act.task.map (fun t => { t with lease := 0 }) } }) s
  let s := lowerTo n 6 s
  notifyFirmwareSubs n (coreAt s n).act (cidOf n) 3 info (min left 0xFFFFFFFF) 0 s

/-- R298 -/
def execBoostLeaseEnd (s : State) : Out :=
  match s.happening with
  | .boostLeaseEnd n t =>
    onCore n s (fun s =>
      let c := (coreAt s n).act
      if c.isTask t && c.leased && c.leaseLeft (tickNow s) == 0 then endLease n 0 0 s else s)
  | _ => .next s

/-- R298, R368: the record of a revoked lease. -/
def revokedRec (s : State) (n : Nat) (c : Context) : Rec :=
  { area := 3, cause := 0xB0, taskid := c.tid, asid := some c.asid, cid := some (cidOf n), ifc := ifcOfQuad s (quadOf n), tval := cidOf n }

/-- R298 -/
def execBoostLeaseRevoke (s : State) : Out :=
  match s.happening with
  | .boostLeaseRevoke n =>
    onCore n s (fun s =>
      let c := (coreAt s n).act
      if c.leased then endLease n 1 (c.leaseLeft (tickNow s)) (record (revokedRec s n c) s) else s)
  | _ => .next s

/-! ### Sensors and subscriptions (R187, R299, R300) -/

/-- R299: the sensors that measure something. -/
def sensors : List Nat := List.range 1152 ++ [0x800, 0x801, 0x802, 0x803, 0x804, 0x805, 0x806, 0x807, 0x810, 0x820, 0x830]

/-- R299: a sample; the rack budget in force is the model's own, in mW. -/
def measure (s : State) (n : Nat) : Int := if n == 0x830 then s.rack.inForce * 1000 else Config.sensor n (tickNow s)

/-- R299: the hysteresis of a sensor. -/
def hysteresis (n : Nat) : Int :=
  if n < 0x480 then 32 else if n < 0x808 then 1000 else if n == 0x810 then 10000 else if n == 0x820 then 16 else 0

/-- R299: whether a subscription fires at a sample, and how it stands after it. -/
def Subscription.test (v : Int) (b : Subscription) : Bool × Subscription :=
  let h := hysteresis b.sensor
  if b.falling then
    if b.armed && v < b.threshold then (true, { b with armed := false })
    else (false, { b with armed := b.armed || decide (b.threshold ≤ v ∧ b.threshold + h ≤ v) })
  else
    if b.armed && b.threshold ≤ v then (true, { b with armed := false })
    else (false, { b with armed := b.armed || decide (v < b.threshold ∧ v ≤ b.threshold - h) })

/-- R299, R300: test slot `k` of the context `c` on core `n`. -/
def testSlot (n : Nat) (c : Context) (k : Nat) (s : State) : State :=
  match c.psub.getD k none with
  | none => s
  | some b =>
    match s.samples.find? (fun x => x.1 == b.sensor) with
    | none => s
    | some x =>
      let r := b.test x.2
      let s := modTask c.tid (fun c => { c with psub := c.psub.set k (some r.2) }) s
      if r.1 then notifySub n c b.word b.sensor 0 (b2n b.falling) x.2 0 s else s

/-- R299: test every subscription. -/
def testSubscriptions (s : State) : State :=
  (liveContexts s).foldl (fun s e => (List.range 8).foldl (fun s k => testSlot e.1 e.2 k s) s) s

/-! ### Thermal action (R301) -/

/-- R301: TLIM of a core in the sensor's unit. -/
def tempLimit (s : State) (n : Nat) : Int := fld (regRaw s (pwrctl n)) 16 8 * 16

/-- R301: mesh hops between two cores of a die. -/
def hops (a b : Nat) : Nat :=
  let d (x y : Nat) : Nat := (x - y) + (y - x)
  d (a % 144 / 24) (b % 144 / 24) + d (a % 24 / 4) (b % 24 / 4)

/-- R301: whether core `m` is cool enough to take a context. -/
def coolEnough (s : State) (m : Nat) : Bool := (sampleOf s m).any (fun v => decide (v ≤ tempLimit s m - 160))

/-- R301: the nearest target for core `n` that no other core has been given. -/
def chooseTarget (s : State) (n : Nat) (taken : List Nat) : Option Nat :=
  ((List.range 144).map (fun i => dieOf n * 144 + i)).foldl (fun b m =>
    if m != n && targetFree s m && coolEnough s m && !taken.contains m then
      match b with
      | none => some m
      | some x => if hops n m < hops n x then some m else b
    else b) none

/-- R301, R303: what the Lodge does about a core's sample; the targets given so far. -/
def thermalCore (n : Nat) (r : List Nat × State) : List Nat × State :=
  let s := r.2
  let d := coreAt s n
  match sampleOf s n with
  | none => r
  | some v =>
    if v < tempLimit s n then (r.1, if d.throttled then modCoreAt n (fun d => { d with throttled := false }) s else s)
    else
      match d.swapReq with
      | some (.migrated _) => r
      | _ =>
        match chooseTarget s n r.1 with
        | some m =>
          if d.act.task.isSome && d.act.ending.isNone && s.remaps.length < Config.remapEntries then
            (r.1 ++ [m], inTicks Config.migrationRequestTicks (.migration n m) s)
          else (r.1, soon (.thermalThrottle n) s)
        | none => (r.1, soon (.thermalThrottle n) s)

/-- R299, R301 -/
def execSensorSample (s : State) : Out :=
  match s.happening with
  | .sensorSample =>
    let l := sensors.map (fun n => (n, measure s n))
    let s := holdLimit (testSubscriptions { s with samples := l, history := l })
    .next (inTicks 4096 .sensorSample ((List.range 1152).foldl (fun r n => thermalCore n r) ([], s)).2)
  | _ => .next s

/-- R301, R368: the record of a thermal throttle, made as it begins. -/
def throttleRec (n : Nat) : Rec := { area := 3, cause := 0xB3, cid := some (cidOf n), tval := cidOf n }

/-- R301: OPLIM of a hot core falls by one point. -/
def throttle (n : Nat) (s : State) : State :=
  let s := if (coreAt s n).throttled then s else modCoreAt n (fun d => { d with throttled := true }) (record (throttleRec n) s)
  lowerOne n s

/-- R301 -/
def execThermalThrottle (s : State) : Out :=
  match s.happening with
  | .thermalThrottle n => onCore n s (throttle n)
  | _ => .next s

/-! ### The rack budget (R305, R392) -/

/-- R305: ticks of 100 ms. -/
def holdTicks : Nat := 120000000

/-- R305, R392: a valid message sets the budget and starts a hold; another is counted as ignored. -/
def rackMessage (v : W64) (s : State) : State :=
  let r := s.rack
  let w := fld v.toNat 0 32
  let q := BitVec.ofNat 32 (fld v.toNat 32 32)
  let diff := (q - r.last).toNat
  if 1 ≤ diff && diff < 2 ^ 31 then
    let due := tickNow s + holdTicks
    inTicks holdTicks (.rackBudgetHoldExpiry due)
      { s with rack := { r with inForce := max 300 (min w 3000), last := q, deadline := some due, floor := false } }
  else { s with rack := { r with ignored := min 0xFFFF (r.ignored + 1) } }

/-- R305 -/
def execRackBudgetMessage (s : State) : Out :=
  match s.happening with
  | .rackBudgetMessage v => .next (rackMessage v s)
  | _ => .next s

/-- R305, R392: a hold that no newer message has replaced ends: the floor is in force. -/
def holdEnds (due : Nat) (s : State) : State :=
  if s.rack.deadline == some due then
    let f := fld (regRaw s 0x2500018) 0 32
    record { area := 3, event := 0x0301, tval := f, aux := s.rack.last.toNat }
      { s with rack := { s.rack with inForce := f, deadline := none, floor := true } }
  else s

/-- R392 -/
def execRackBudgetHoldExpiry (s : State) : Out :=
  match s.happening with
  | .rackBudgetHoldExpiry due => .next (holdEnds due s)
  | _ => .next s

end Sys2Proof.Machine
end

