-- ==== Sys2Proof/Machine/Ranks.lean ====
section
/-! DEFINITION. The Terrace instructions: declaration, offers, list images and reads of ranked accumulators (R236 to R241). -/

namespace Sys2Proof.Machine

/-! ### Declaration and offers (R238) -/

/-- R238: an accumulator declared ranked. -/
def declared (k : Nat) (dir vt : Bool) : Acc := { Acc.zero with kind := .ranked, k := k, dir := dir, vt := vt }

/-- R238 -/
def execRkdecl (d : BitVec 6) (v : BitVec 1) (k : BitVec 4) (r : BitVec 1) (s : State) : Out :=
  checked (.rkdecl d v k r) s (fun s =>
    .next (modAcc d.toNat (fun _ => (declared (k.toNat + 1) (r == 1) (v == 1)).writing (s.core.cycle + 2)) s))

/-- R238 -/
def execRkrel (d : BitVec 6) (s : State) : Out :=
  checked (.rkrel d) s (fun s =>
    orTrap (notRanked s d.toNat) s (fun s => .next (modAcc d.toNat (clearAcc .float (s.core.cycle + 2)) s)))

/-- R238: the tags of RKINS; whether a value tag is that of the accumulator's VT, which a plain one has not. -/
def rkinsTags (c : Acc) (a b : BitVec 6) (x y : VReg) : Option (BitVec 8 × W64) :=
  causeIf (c.kind == .ranked && x.tag != (if c.vt then 11 else 1)) (0x20, specTag a.toNat x.tag) <|>
    causeIf (y.tag != 0 && y.tag != 11) (0x20, specTag b.toNat y.tag)

/-- R238 -/
def execRkins (d a b : BitVec 6) (m : BitVec 3) (s : State) : Out :=
  checked (.rkins d a b m) s (fun s =>
    let x := readV .va a.toNat s
    let y := readV .va b.toNat s
    let mk := readMask (if a.toNat < 32 then .va else .vb) m.toNat s
    orTrap (rkinsTags (accAt s d.toNat) a b x y <|> notRanked s d.toNat) s (fun s =>
      .next (modAcc d.toNat (fun c =>
        ((maskLanes mk).foldl (fun c l => c.offer (l % 32) (x.lane l).toNat (y.lane l).toNat) c).writing (s.core.cycle + 12)) s)))

/-- R238, R352: the causes of RKACC. -/
def rkaccFault (s : State) (d a : Nat) : Option (BitVec 8 × W64) :=
  notRanked s d <|> causeIf (a == d || (accAt s a).kind != (if (accAt s d).vt then .int else .float)) (kindFault s a)

/-- R238 -/
def execRkacc (d a : BitVec 6) (n : BitVec 2) (s : State) : Out :=
  checked (.rkacc d a n) s (fun s =>
    orTrap (rkaccFault s d.toNat a.toNat) s (fun s =>
      let src := accAt s a.toNat
      let mp := maskPair s n.toNat
      let base := fld (readS s.core.slot.xb.toNat s).toNat 0 32
      let cells := ((List.range 32).filter (bit mp.1)).flatMap (fun i => ((List.range 32).filter (bit mp.2)).map (fun j => (i, j)))
      let s := modAcc a.toNat (Acc.reading (s.core.cycle + 40)) s
      .next (modAcc d.toNat (fun c =>
        (cells.foldl (fun c ij => c.offer ij.1 (src.word ij.1 ij.2) ((base + ij.2) % 2 ^ 32)) c).writing (s.core.cycle + 40)) s)))

/-! ### List images (R239, R240, R352) -/

/-- R239: the record of row `i`. -/
def Acc.rowRecord (a : Acc) (i : Nat) : List Byte :=
  toBytes 2 i ++ toBytes 2 (a.len.getD i 0) ++ toBytes 4 0 ++ (a.pairs i).flatMap (fun p => toBytes 4 p.1 ++ toBytes 4 p.2)

/-- R239, R240: the image of rows of an accumulator. -/
def Acc.listImage (a : Acc) (rows : List Nat) : List Byte :=
  let recs := rows.flatMap a.rowRecord
  toBytes 1 a.k ++ toBytes 1 (b2n a.dir + b2n a.vt * 2) ++ toBytes 1 rows.length ++ toBytes 1 0 ++ toBytes 4 (16 + recs.length) ++
    toBytes 8 0 ++ recs

/-- R240 -/
def execRkst (d a : BitVec 6) (n : BitVec 2) (s : State) : Out :=
  checked (.rkst d a n) s (fun s =>
    orTrap (notRanked s d.toNat) s (fun s =>
      let va := (readS a.toNat s).toNat
      let img := (accAt s d.toNat).listImage ((List.range 32).filter (bit (maskPair s n.toNat).1))
      oneAccess va img.length .write 16 (.store img) s (fun p s =>
        let home := isHome va img.length
        let acc := mkAccess s s.core.slot.xb.toNat false false va [p] (.store img) .none (answerUnits s home 1 [p])
        .next (makeAccess home acc (modAcc d.toNat (Acc.reading (s.core.cycle + 4 + ceilDiv img.length 512)) s)))))


/-- R352: the bad fields that records have, `n` records being left at offset `o` of an image, and the offset after the last. -/
def recordFaults (img : List Byte) : Nat → Nat → List Nat × Nat
  | 0, o => ([], o)
  | n + 1, o =>
    if img.length < o + 8 then ([4], o)
    else
      let bad := (if 31 < leAt img o 2 then [o] else []) ++ (if 16 < leAt img (o + 2) 2 then [o + 2] else []) ++
        (if leAt img (o + 4) 4 != 0 then [o + 4] else [])
      let r := recordFaults img n (o + 8 + 8 * leAt img (o + 2) 2)
      (bad ++ r.1, r.2)

/-- R352: the bad fields of a header; `merge` is the accumulator of RKMERGE. -/
def headerFaults (img : List Byte) (merge : Option Acc) : List Nat :=
  let fl := leAt img 1 1
  let other := merge.any (fun a => bit fl 0 != a.dir || bit fl 1 != a.vt)
  (if leAt img 0 1 == 0 || 16 < leAt img 0 1 then [0] else []) ++ (if 4 ≤ fl || other then [1] else []) ++
    (if 32 < leAt img 2 1 then [2] else []) ++ (if leAt img 3 1 != 0 then [3] else []) ++
    (if leAt img 4 4 < 16 || 4368 < leAt img 4 4 then [4] else []) ++ (if leAt img 8 8 != 0 then [8] else [])

/-- R352: the bad fields of a whole image. -/
def imageFaults (img : List Byte) (merge : Option Acc) : List Nat :=
  let r := recordFaults img (leAt img 2 1) 16
  headerFaults img merge ++ r.1 ++ (if r.2 != leAt img 4 4 then [4] else [])

/-- R342, R344: 0x4C with the offset of the first bad field. -/
def imageFault (l : List Nat) : Option (BitVec 8 × W64) :=
  match l with
  | [] => none
  | x :: r => some (0x4C, BitVec.ofNat 64 (r.foldl min x))

/-- R239: the pairs that the records of an image offer: row, value, index. -/
def imagePairs (img : List Byte) : Nat → Nat → List (Nat × Nat × Nat)
  | 0, _ => []
  | n + 1, o =>
    let len := leAt img (o + 2) 2
    (List.range len).map (fun p => (leAt img o 2, leAt img (o + 8 + 8 * p) 4, leAt img (o + 12 + 8 * p) 4)) ++
      imagePairs img n (o + 8 + 8 * len)

/-- R240: the image has arrived: it is checked, then its pairs are offered to accumulator `d`, declared anew by RKLD. -/
def mergeImage (load : Bool) (d : Nat) (img : List Byte) (s : State) : Out :=
  let a := accAt s d
  orTrap (imageFault (imageFaults img (if load then none else some a))) s (fun s =>
    let ps := imagePairs img (leAt img 2 1) 16
    let a := if load then declared (leAt img 0 1) (bit (leAt img 1 1) 0) (bit (leAt img 1 1) 1) else a
    .next (modAcc d (fun _ => (ps.foldl (fun c p => c.offer p.1 p.2.1 p.2.2) a).writing (s.core.cycle + ceilDiv ps.length 16 + 8)) s))

/-- R225, R240: accumulator `d` is WBUSY until the part of an image that access `w` reads has come; or that part has come. -/
def imageBusy (d : Nat) (w : Option Nat) (s : State) : State := modAcc d (fun a => { a with wait := w }) s

/-- R240: make the access of one part of an image for accumulator `d`, `got` being the bytes already there, and wait for it. -/
def imagePart (d va : Nat) (home : Bool) (p : Piece) (lat : Nat) (got : List Byte) (phase : Nat) (s : State) : State :=
  let a := { mkAccess s s.core.slot.xb.toNat false false va [p] .load .waiting lat with data := got }
  let s := if home then soon (.accessPerform a.id) { s with accesses := s.accesses ++ [a], nextId := s.nextId + 1 } else sendAccess a s
  stallFor (.access a.id phase) (imageBusy d (some a.id) s)

/-- R240, R373: the header has arrived: the span of BYTES is checked and the rest is read. -/
def imageRest (load : Bool) (d va : Nat) (hdr : List Byte) (s : State) : Out :=
  let size := leAt hdr 4 4
  if size < 16 || 4368 < size then
    orTrap (imageFault (headerFaults hdr (if load then none else some (accAt s d)))) s (fun s => .next s)
  else
    oneAccess va size .read 16 .load s (fun p s =>
      if size == 16 then mergeImage load d hdr s
      else
        let home := isHome va size
        let q : Piece := ⟨p.pa + 16, size - 16, p.key⟩
        let lat := if home then (4 + ceilDiv (size - 16) 512) * s.core.unit
          else ((halves s s.lcn [q]).2 + ceilDiv (size - 16) 64) * Config.unitsPerTick
        .next (imagePart d (va + 16) home q lat hdr 1 s))

/-- R240, R373: the two parts of an image read. -/
def readImage (load : Bool) (d : Nat) (va : Nat) (s : State) : Out :=
  match s.core.act.wait with
  | .access id ph =>
    match accessAt s id with
    | none => .next (stall (imageBusy d none (waitOver s)))
    | some a =>
      if !a.answered then .next (stall s)
      else
        let s := imageBusy d none (dropAccess id (waitOver s))
        match a.failed with
        | some f => .next (trapAt a.va f.1 f.2 s)
        | none => if ph == 0 then imageRest load d va a.data s else mergeImage load d a.data s
  | _ =>
    oneAccess va 16 .read 16 .load s (fun p s =>
      let home := isHome va 16
      .next (imagePart d va home p (answerUnits s home 4 [p]) [] 0 s))

/-- R240 -/
def execRkmerge (d a : BitVec 6) (s : State) : Out :=
  checked (.rkmerge d a) s (fun s =>
    orTrap (notRanked s d.toNat) s (fun s => readImage false d.toNat (readS a.toNat s).toNat s))

/-- R240 -/
def execRkld (d a : BitVec 6) (s : State) : Out :=
  checked (.rkld d a) s (fun s => readImage true d.toNat (readS a.toNat s).toNat s)

/-! ### Reads (R241) -/

/-- R241: 32 values in lanes 0 to 31. -/
def rowLanes (f : Nat → Nat) : List W32 := (List.range 64).map (fun l => BitVec.ofNat 32 (if l < 32 then f l else 0))

/-- R241 -/
def execRkth (d a : BitVec 6) (s : State) : Out :=
  checked (.rkth d a) s (fun s =>
    let c := accAt s a.toNat
    orTrap (notRanked s a.toNat) s (fun s =>
      let s := modAcc a.toNat (Acc.reading (s.core.cycle + 3)) s
      .next (writeV .va d.toNat (BitVec.allOnes 64) ⟨rowLanes c.threshold, if c.vt then 11 else 1⟩ 3 s)))

/-- R241 -/
def execRklen (d a : BitVec 6) (s : State) : Out :=
  checked (.rklen d a) s (fun s =>
    let c := accAt s a.toNat
    orTrap (notRanked s a.toNat) s (fun s =>
      let s := modAcc a.toNat (Acc.reading (s.core.cycle + 3)) s
      .next (writeV .va d.toNat (BitVec.allOnes 64) ⟨rowLanes (fun i => c.len.getD i 0), 11⟩ 3 s)))

end Sys2Proof.Machine
end

