-- ==== Sys2Proof/Machine/Streams.lean ====
section
/-! DEFINITION. Streams on circuits (R263, R264), leases and failures of circuits (R385), the fallback of flows (R386). -/

namespace Sys2Proof.Machine

/-! ### Streams (R263, R264) -/

/-- R263: bytes of the segment that follows those committed. -/
def Stream.segment (m : Stream) : Nat := min 4096 (m.len - m.committed)

/-- R274: ticks of the circuit of a handle of core `n`. -/
def handleTicks (n : Nat) (h : Handle) : Nat := circuitTicks n h.far

/-- R263, R302: whether the streams of a handle may run: its context is active and not about to be moved, its path is reserved. -/
def mayStream (s : State) (n t h : Nat) : Bool :=
  let d := coreAt s n
  let v := d.act.handle h
  (v.st == .opened || v.st == .closing) && !v.running && !d.leaving.moving && d.act.ending.isNone &&
    !s.lanterns.any (fun l => l.owner == .handle t h)

/-- R262, R263: the stream at the head of a queue is over; a CLOSING handle without streams becomes FREE. -/
def endStream (t h : Nat) (s : State) : State :=
  match ctxOf s t with
  | none => s
  | some c =>
    let v := c.handle h
    let r := v.streams.drop 1
    if r.isEmpty && v.st == .closing then releaseOwner (.handle t h) (modTask t (Context.setHandle h v.freed) s)
    else
      let s := modTask t (Context.setHandle h { v with streams := r, running := false }) s
      if r.isEmpty then s else soon (.streamStart t h) s

/-- R263: after its last commit a stream performs its release, once that may perform, and is over. -/
def releaseStream (t h : Nat) (m : Stream) (s : State) : State :=
  if m.rel && !mayRelease s t m.cid (m.scope == .pod) then
    inTicks 1 (.streamStart t h) (modTask t (fun c => c.setHandle h { c.handle h with running := false }) s)
  else endStream t h s

/-- R263: the stream at the head of an open handle's queue starts or goes on. -/
def startStream (n t h : Nat) (s : State) : State :=
  let v := (coreAt s n).act.handle h
  match v.streams with
  | [] => s
  | m :: _ =>
    if !mayStream s n t h then s
    else if m.len ≤ m.committed then releaseStream t h m s
    else
      inTicks (handleTicks n v + ceilDiv m.segment 64 - 1) (.segmentCommit t h)
        (modTask t (Context.setHandle h { v with running := true }) s)

/-- R263 -/
def execStreamStart (s : State) : Out :=
  match s.happening with
  | .streamStart t h =>
    .next (match activeOn s t with
      | none => s
      | some n => startStream n t h s)
  | _ => .next s

/-- R385: a circuit ends other than by CCLOSE: the handle is LOST and its path released. -/
def loseCircuit (t h : Nat) (s : State) : State := releaseOwner (.handle t h) (modTask t (Context.loseHandle h) s)

/-- R373, R379: a stream's access fails: it ends without its release. -/
def streamFails (t h : Nat) (d : Deferred) (s : State) : State :=
  let s := failTaskAt t d.addr d.code d.tval d.order s
  match ctxOf s t with
  | none => s
  | some c =>
    let v := c.handle h
    if c.ending.isSome then releaseOwner (.handle t h) (modTask t (Context.setHandle h v.freed) s)
    else endStream t h s

/-- R263, R379: what stops a segment of `k` bytes: its source beyond the home window, or uncorrectable data. -/
def segmentStop (s : State) (n k : Nat) (m : Stream) : Option Deferred :=
  let x := m.src + m.committed
  if 0x400000 < x + k then some ⟨0x80, copyDetail m.ch x, m.order, x⟩
  else if spanBad s (sliceBase (cidOf n) + x) k then some ⟨0x6B, BitVec.ofNat 64 x, m.order, x⟩
  else if partialBad s (localOf m.dst + m.committed) k then some ⟨0x6B, BitVec.ofNat 64 (m.dst + m.committed), m.order, m.dst + m.committed⟩
  else none

/-- R263, R264, R358, R385: after a segment commit the stream ends, loses its circuit, stops, or goes on. -/
def afterSegment (n t h : Nat) (s : State) : State :=
  match ctxOf s t with
  | none => s
  | some c =>
    let v := c.handle h
    let m := v.streams.headD ⟨0, 0, 0, .none, .c0, 0, false, .lane, 0, 0, 0, 0⟩
    let done := decide (m.len ≤ m.committed)
    if v.expired then
      loseCircuit t h (if done then modTask t (Context.setHandle h { v with streams := [] }) s else s)
    else if c.ending.isSome then releaseOwner (.handle t h) (modTask t (Context.setHandle h v.freed) s)
    else if done then releaseStream t h m s
    else
      let s := modTask t (Context.setHandle h { v with running := false }) s
      match activeOn s t with
      | none => s
      | some _ =>
        if mayStream s n t h then
          inTicks (ceilDiv m.segment 64) (.segmentCommit t h) (modTask t (Context.setHandle h v) s)
        else s

/-- R263: the bytes of a segment perform at the far slice and are counted. -/
def commitSegment (n t h k : Nat) (m : Stream) (s : State) : State :=
  let bs := readHome s n (m.src + m.committed) k
  let s := countBinding t m.bind k m.order (writeLocal 0 (localOf m.dst + m.committed) bs s)
  let s := modTask t (fun c =>
    let v := c.handle h
    c.setHandle h { v with streams := { m with committed := m.committed + k } :: v.streams.drop 1 }) s
  afterSegment n t h s

/-- R114, R263: a segment of the running stream of a handle is complete; its source stalls on a watermark like the context's other copy
reads, and on host entries that the context claimed before it (R118); its bytes wait for a row test (R378). -/
def segmentDone (n : Nat) (c : Context) (t h : Nat) (s : State) : State :=
  let v := c.handle h
  match v.streams with
  | [] => s
  | m :: _ =>
    if !v.running then s
    else
      match segmentStop s n m.segment m with
      | some d => streamFails t h d s
      | none =>
        if claimPending s t m.cid || rowTested s (localOf m.dst + m.committed) m.segment ||
            rowTested s (sliceBase (cidOf n) + m.src + m.committed) m.segment || copyStalls s n c none [⟨pkgId s * 2 ^ 46 + sliceBase (cidOf n) + m.src + m.committed, m.segment, 0⟩] then
          inTicks 1 (.segmentCommit t h) s
        else commitSegment n t h m.segment m s

/-- R263 -/
def execSegmentCommit (s : State) : Out :=
  match s.happening with
  | .segmentCommit t h =>
    .next (match holder s t with
      | none => s
      | some x => segmentDone x.1 x.2 t h s)
  | _ => .next s

/-! ### Leases and failures (R385, R386) -/

/-- R385: a lease that has run out ends its circuit, after the segment in flight where one is. -/
def leaseEnds (t h : Nat) (s : State) : State :=
  match ctxOf s t with
  | none => s
  | some c =>
    let v := c.handle h
    if (v.st == .opened || v.st == .closing) && decide (v.lease ≤ tickNow s) then
      if v.running then modTask t (Context.setHandle h { v with expired := true }) s else loseCircuit t h s
    else s

/-- R385 -/
def execCircuitLeaseExpiry (s : State) : Out :=
  match s.happening with
  | .circuitLeaseExpiry t h => .next (leaseEnds t h s)
  | _ => .next s

/-- R275: the trunk slot that a wavelength serves: its own, or the one a spare stands in for; none where it has failed. -/
def Glass.slotOf (g : Glass) (num : Nat) : Option Nat :=
  if g.deadWaves.contains num then none
  else if num < 60 then some (num / 5)
  else (g.standIn.find? (fun e => e.1 == num)).map Prod.snd

/-- R275: a trunk slot that has lost a wavelength is given a spare while one is left, and is unusable after. -/
def Glass.replace (x : Nat) (g : Glass) : Glass :=
  match g.spares with
  | w :: r => { g with spares := r, standIn := (w, x) :: g.standIn }
  | [] => { g with deadSlots := x :: g.deadSlots }

/-- R275: a die's share of the Glasshouse after an element has failed. -/
def Glass.after (k : GlassElement) (num : Nat) (g : Glass) : Glass :=
  match k with
  | .wavelength =>
    let h := { g with
      deadWaves := num :: g.deadWaves
      spares := g.spares.filter (fun w => w != num)
      standIn := g.standIn.filter (fun e => e.1 != num) }
    match g.slotOf num with
    | some x => h.replace x
    | none => h
  | .trunkSlot => { g with deadSlots := num :: g.deadSlots }
  | .crosspoint => { g with deadCross := num :: g.deadCross }

/-- R274, R275, R385: whether a held slot passes the failed element of a die. -/
def Port.onElement (g : Glass) (die : Nat) (k : GlassElement) (num : Nat) : Port → Bool
  | .trunk d _ x => d == die && (match k with
    | .wavelength => g.slotOf num == some x
    | .trunkSlot => x == num
    | .crosspoint => false)
  | .tx n | .rx n => k == .crosspoint && dieOf n == die && quadOf n % 36 == num
  | .out d r c _ => k == .crosspoint && d == die && r * 6 + c == num

/-- R385: bytes of the segment in flight may stand at the far slice: which is a free value. -/
def strayBytes (n : Nat) (m : Stream) (s : State) : State :=
  let u := s.free
  let a := localOf m.dst + m.committed
  let old := readLocal s 0 a m.segment
  let new := readHome s n (m.src + m.committed) m.segment
  writeLocal 0 a ((List.range m.segment).map (fun i => if Config.segmentByteStands u i then new.getD i 0 else old.getD i 0))
    { s with free := u + 1 }

/-- R385: a handle's segment in flight does not commit. -/
def dropSegment (o : CircuitOwner) (s : State) : State :=
  match o with
  | .handle t h => unschedule (fun x => x == .segmentCommit t h) s
  | .flow _ _ => s

/-- R385: the circuit of a handle fails. -/
def handleFails (t h : Nat) (s : State) : State :=
  let s := dropSegment (.handle t h) s
  match holder s t with
  | none => releaseOwner (.handle t h) s
  | some x =>
    let v := x.2.handle h
    let s := match v.streams with
      | m :: _ => if v.running then strayBytes x.1 m s else s
      | [] => s
    match v.st with
    | .opened | .closing => loseCircuit t h s
    | _ => releaseOwner (.handle t h) s

/-- R386: a circuit burst that has not performed is read again from its source, to be injected into the Promenade. -/
def resend (b : Burst) (s : State) : State :=
  match b.flow with
  | none => s
  | some f =>
    let p := b.src.headD ⟨0, 0, 0⟩
    let own := pkgOf p.pa == pkgId s && !b.src.isEmpty
    if own && b.src.any (fun p => spanBad s (localOf p.pa) p.len) then burstFails b 0x6B (BitVec.ofNat 64 b.srcVa) s
    else soon (.burstPerform b.id)
      (putBurst { b with bytes := if own then readPieces s b.src else b.bytes, stage := 1, flow := some f, circuit := false, beats := 0 } s)

/-- R386: the flow of an entry falls back to the Promenade and is held off for four windows. What the landing entry holds waits for
the mark (R391). -/
def flowFallsBack (q i : Nat) (s : State) : State :=
  match flowAt s q i with
  | none => releaseOwner (.flow q i) s
  | some f =>
    let held := ((landingOf s f.flow).map Landing.held).getD []
    let lost := s.bursts.filter (fun b => b.circuit && b.flow.any (fun g => g.1 == f.flow) && !held.any (fun y => y.id == b.id))
    let s := putFlow q i (some { f with st := .heldOff 4 }) (releaseOwner (.flow q i) s)
    lost.foldl (fun s b => resend b s) (if held.isEmpty then dropLanding f.flow s else s)

/-- R385, R386: what an owner that still holds slots meets when it learns that one of them has failed. -/
def ownerFails (o : CircuitOwner) (s : State) : State :=
  if !s.held.any (fun x => x.owner == o) then s
  else
  match s.lanterns.find? (fun l => l.owner == o), o with
  | some l, .handle _ _ => lanternFails l s
  | some l, .flow q i => lanternFails l { s with landings := s.landings.filter (fun x => !(x.q == q && x.entry == i)) }
  | none, .handle t h => handleFails t h s
  | none, .flow q i => flowFallsBack q i s

/-- R368: the number of an element kind. -/
def elementCode : GlassElement → Nat
  | .wavelength => 0
  | .crosspoint => 1
  | .trunkSlot => 2

/-- R275: how many elements of a kind a die has. -/
def elementCount : GlassElement → Nat
  | .wavelength => 64
  | .crosspoint => 36
  | .trunkSlot => 12

/-- R385, R386: the happening by which the source of an owner learns of the failure. -/
def CircuitOwner.fails : CircuitOwner → Happening
  | .handle t h => .circuitFails t h
  | .flow q i => .flowFails q i

/-- R385: an owner of slots on a failed element: its segment in flight does not commit, and its source learns of the failure in the tick
after it. -/
def ownerLearns (o : CircuitOwner) (s : State) : State :=
  atTime ((tickNow s + 1) * Config.unitsPerTick) o.fails (dropSegment o s)

/-- R275, R368, R385: an element fails: it is recorded with the number of circuits that end, and the sources of what passes it learn of
it. -/
def elementFails (die : Nat) (k : GlassElement) (num : Nat) (s : State) : State :=
  let os := ((s.held.filter (fun x => x.port.onElement (glassAt s die) die k num)).map Held.owner).eraseDups
  let n := (os.filter (fun o => !s.lanterns.any (fun l => l.owner == o))).length
  let s := record { area := 2, event := 0x0209, tval := die + elementCode k * 256 + num * 65536, aux := n } s
  os.foldl (fun s o => ownerLearns o s) { s with glass := assocPut die ((glassAt s die).after k num) s.glass }

/-- R385, R386 -/
def execGlasshouseElementFailure (s : State) : Out :=
  match s.happening with
  | .glasshouseElementFailure d k num =>
    if num < elementCount k then onDie d s (elementFails d k num) else .fault .noSuchUnit
  | .circuitFails t h => .next (ownerFails (.handle t h) s)
  | .flowFails q i => onQuad q s (ownerFails (.flow q i))
  | _ => .next s

end Sys2Proof.Machine
end

