-- ==== Sys2Proof/Machine/Remote.lean ====
section
/-! DEFINITION. Accesses that perform at their destination and their answers (R92, R219, R246), other packages (R26, R284, R285, R382,
R387), and the network engines (R265, R266, R383). -/

namespace Sys2Proof.Machine

/-! ### Performing (R92, R107, R219) -/

/-- R219: an access has performed: its answer takes its own time. -/
def answerWith (a : Access) (e : Effect) (s : State) : State :=
  atTime (s.time + a.latency) (.accessResponse a.id)
    (putAccess { a with performed := true, data := a.data ++ e.data, flags := e.flags, failed := e.failed } s)

/-- R107, R375: whether an access must wait before it performs in this package: one that must precede it has not performed, or a unit of its
bytes is in motion. -/
def mustWait (s : State) (a : Access) : Bool :=
  !mayPerform s (holdsOf s a.taskid) a || a.pieces.any (fun p => inMotion s (localOf p.pa) p.len)

/-- R374: an access performs in this package, under the version of the tables that it carries. -/
def performNow (a : Access) (s : State) : State :=
  let r := performSent a.id a.op a.pieces a.va s
  answerWith a r.1 r.2

/-- R267: of a BARRT and a BARA that reach one slot together, the BARRT performs first. -/
def retireFirst (a : Access) (s : State) : State :=
  match a.op with
  | .arrive _ =>
    (s.accesses.filter (fun x => x.op == .retire && !x.performed && !mustWait s x && x.pieces.any (fun p => a.pieces.any p.meets) &&
      s.agenda.any (fun e => e.2 == .accessPerform x.id && decide (e.1 ≤ s.time)))).foldl
        (fun s x => performNow x (unschedule (fun h => h == .accessPerform x.id) s)) s
  | _ => s

/-- R107, R267, R374, R375: an access performs in this package once it need not wait. -/
def performHere (a : Access) (s : State) : State :=
  if mustWait s a then inTicks 1 (.accessPerform a.id) s else performNow a (retireFirst a s)

/-- The local address an access begins at. -/
def Access.pa (a : Access) : Nat := (a.pieces.headD ⟨0, 0, 0⟩).pa

/-- R284: whether an earlier access that must precede `a` is one that keeps its order on the way: it has left for the same package by
the same station. -/
def follows (s : State) (x a : Access) : Bool :=
  x.sent.isSome && x.pkg == a.pkg && stationFor s x.pkg x.pa == stationFor s a.pkg a.pa

/-- R107, R284: whether an access to another package may leave. -/
def mayLeave (s : State) (a : Access) : Bool :=
  !held s a.taskid (holdsOf s a.taskid) a.cls a.id && !(a.podRelease s && unackedBefore s a.taskid a.id) &&
    (pendingOf s a.taskid).all (fun x =>
      !(decide (x.id < a.id) && x.group != a.group && mustPrecede s x a && !follows s x a))

/-- R382: an access to another package fails before it is answered. -/
def failAccess (a : Access) (code : BitVec 8) (val : W64) (s : State) : State :=
  soon (.accessResponse a.id) (putAccess { a with performed := true, failed := some (code, val) } s)

/-- R284, R285, R382: an access to another package leaves by its station, where the peer's cap lets it; it may never be answered. -/
def leave (a : Access) (s : State) : State :=
  if !mayLeave s a then inTicks 1 (.accessPerform a.id) s
  else
    toPeer a.pkg a.pa a.load s
      (fun s =>
        let u := s.free
        let s := byStation a.pkg a.pa u { putAccess { a with sent := some (tickNow s) } s with free := u + 1 }
        let s := inTicks remoteLimit (.remoteTimeout a.id) s
        if Config.remoteSilent u then s else inTicks (halves s a.lcn a.pieces).1 (.accessPerform a.id) s)
      (inTicks 1 (.accessPerform a.id)) (failAccess a 0xA0 (BitVec.ofNat 64 a.pkg))

/-- R26, R382: an access performs in another package, or is refused there: what it reads is open. -/
def performThere (a : Access) (s : State) : State :=
  let u := s.free
  let s := { s with free := u + 1 }
  if holed a.pieces || Config.remoteRefuses u then answerWith a ⟨[], 0, some (0xA2, BitVec.ofNat 64 a.va)⟩ s
  else
    let bs := if a.op.reads then (List.range a.load).map (Config.remoteByte u) else []
    let fl := match a.op with
      | .atomic .fadd32 b => (atomicNew .fadd32 4 (fromBytes bs) (fld b.toNat 0 32)).2
      | _ => 0
    answerWith a ⟨bs, fl, none⟩ s

/-- Whether an access performs in this package: its bytes lie here, or it has none. -/
def Access.here (s : State) (a : Access) : Bool := a.pieces.isEmpty || a.pkg == pkgId s

/-- R219: an access reaches the memory that holds its bytes. -/
def accessStep (a : Access) (s : State) : State :=
  if a.performed then s
  else if a.here s then performHere a s
  else if a.sent.isSome then performThere a s
  else leave a s

/-- R219 -/
def execAccessPerform (s : State) : Out :=
  match s.happening with
  | .accessPerform id =>
    .next (match accessAt s id with
      | none => s
      | some a => accessStep a s)
  | _ => .next s

/-! ### Answers (R131, R219, R246) -/

/-- Whether a wait is for access `id`. -/
def Wait.isFor (id : Nat) : Wait → Bool
  | .access i _ => i == id
  | _ => false

/-- Whether a context, or what a trap entry has set aside of it, waits for access `id`. -/
def Context.waitsFor (id : Nat) (c : Context) : Bool := c.wait.isFor id || c.aside.any (fun a => a.wait.isFor id)

/-- R246: the flags of an AMO.FADD32 come with its answer. -/
def Context.flagsCome (a : Access) (cy : Nat) (c : Context) : Context :=
  { c with completions := c.completions.map (fun m =>
      if m.mid == a.id then { m with flags := BitVec.ofNat 5 a.flags, due := some cy } else m) }

/-- R355, R362: an AMO.FADD32 of a context that issues no bundles completes with its answer; what it raises is saved with the context. -/
def Context.completesAway (a : Access) (c : Context) : Context :=
  let c := c.flagsCome a 0
  (c.completions.filter (fun m => m.mid == a.id)).foldl (fun c m => c.complete m) c

/-- R228: the rows of a tile load come; the tile is no longer being written. -/
def Context.rowsCome (a : Access) (t : Nat) (rows : List Nat) (c : Context) : Context :=
  let x := c.tiles.getD t Tile.zero
  { c with tiles := c.tiles.set t { x with rows := x.filled rows a.data, wait := if x.wait == some a.group then none else x.wait } }

/-- R219: the value of an access reaches what waits for it. -/
def giveAnswer (a : Access) (s : State) : State :=
  let s := match onBoard s a.taskid with
    | some n => modTask a.taskid (Context.flagsCome a (cycleOn s n)) s
    | none => modTask a.taskid (Context.completesAway a) s
  match a.ret with
  | .none | .waiting | .host _ false | .preload _ | .save _ | .net _ _ => s
  | .host tag true => { s with answers := s.answers ++ [⟨tag, some a.data⟩] }
  | .scalar r z g => giveResult a.taskid r (scalarValue a.data z g) VReg.zero s
  | .vector r ls tag => giveResult a.taskid r 0 ⟨lanesFrom ls a.data, tag⟩ s
  | .tile t rows => modTask a.taskid (Context.rowsCome a t rows) s

/-- R285, R289: the response of another package comes in by its station and counts for its peer. -/
def peerResponds (a : Access) (s : State) : State :=
  match a.sent with
  | none => s
  | some t =>
    let u := s.free
    soon (.ualinkResponse a.pkg a.load (tickNow s - t)) (fromStation a.pkg a.pa u { s with free := u + 1 })

/-- R26: the parts of an access. -/
def partsOf (s : State) (a : Access) : List Access := s.accesses.filter (fun x => x.group == a.group)

/-- R26: the bytes of an access from the answers of its parts, in the order of its pieces. -/
def gathered (ps : List Access) : List Byte :=
  let n := (ps.map (fun x => x.parts.length)).sum
  (List.range n).flatMap (fun i =>
    match ps.find? (fun x => x.parts.contains i) with
    | none => []
    | some x =>
      let k := (findIdx (fun j => j == i) x.parts 0).getD 0
      (x.data.drop ((x.pieces.take k).map Piece.len).sum).take (x.pieces.getD k ⟨0, 0, 0⟩).len)

/-- R363: the record of a join update that another package did not make. -/
def remoteJoinRec (s : State) (a : Access) (code : BitVec 8) (val : W64) : Rec :=
  { area := 0, cause := code.toNat, taskid := a.taskid, asid := some a.asid, cid := some (cidOf a.lcn), flags := 16
    ifc := ifcOfQuad s (quadOf a.lcn), tval := val.toNat, addr := a.va }

/-- R335, R363, R382: an access has failed. -/
def accessFails (a : Access) (code : BitVec 8) (val : W64) (s : State) : State :=
  match a.op, a.ret with
  | .joinEnd _, _ | .joinFail _, _ => record (remoteJoinRec s a code val) s
  | _, .host tag true => hostRefused tag a.va s
  | _, .host tag false => writeRefused tag a.va s
  | _, _ => failTaskAt a.taskid a.va code val a.order s

/-- R26, R335, R382: every part of an access has been answered: it has failed, or its value goes where it is waited for. -/
def settleAccess (a : Access) (s : State) : State :=
  let ps := partsOf s a
  let s := { s with accesses := s.accesses.filter (fun x => x.group != a.group) }
  match partsFail ps with
  | some f => accessFails a f.1 f.2 s
  | none => giveAnswer (if a.parts.isEmpty then a else { a with data := gathered ps }) s

/-- R240: the part of an image that keeps an accumulator busy has come, after a trap entry has set its slot aside. -/
def Context.imageComes (id : Nat) (c : Context) : Context :=
  if c.wait.isFor id then c else { c with accs := c.accs.map (fun a => if a.wait == some id then { a with wait := none } else a) }

/-- R26: an engine that another package has answered goes on; an answer that it has no use for any more is dropped. -/
def engineGoes (a : Access) (wanted : Bool) (h : Happening) (s : State) : State :=
  if wanted then soon h (putAccess { a with answered := true } s) else dropAccess a.id s

/-- R219, R382: the answer of an access, or of a part of one, arrives. -/
def respond (a : Access) (s : State) : State :=
  let s := peerResponds a s
  match a.ret with
  | .preload n => engineGoes a ((coreAt s n).preloads.any (fun p => p.entry.task.taskid == a.taskid)) (.preload n) s
  | .save n => engineGoes a ((coreAt s n).shadow != .free && (coreAt s n).shd.isTask a.taskid) (.spill n) s
  | .net e q => engineGoes a ((netAt s e).queue.any (fun r => r.seq == q)) (.networkSegmentComplete e q []) s
  | .waiting =>
    let s := modTask a.taskid (Context.imageComes a.id) s
    if (ctxOf s a.taskid).any (Context.waitsFor a.id) then putAccess { a with answered := true } s else dropAccess a.id s
  | _ =>
    let s := putAccess { a with answered := true } s
    if (partsOf s a).all (fun x => x.answered) then settleAccess { a with answered := true } s else s

/-- R219 -/
def execAccessResponse (s : State) : Out :=
  match s.happening with
  | .accessResponse id =>
    .next (match accessAt s id with
      | none => s
      | some a => if a.performed && !a.answered then respond a s else s)
  | _ => .next s

/-! ### Other packages (R382, R387) -/

/-- R246: the atomic that an OPC names. -/
def remoteAtomic (opc : BitVec 7) (cmp : BitVec 64) : Option AtomicOp :=
  match opc with
  | 0x64 => some (.cas cmp)
  | 0x68 => some .add
  | 0x69 => some .and
  | 0x6A => some .or
  | 0x6B => some .xor
  | 0x6C => some .min
  | 0x6D => some .max
  | 0x6E => some .minu
  | 0x6F => some .maxu
  | 0x70 => some .swap
  | 0x71 => some .fadd32
  | _ => none

/-- R382: what a request asks of memory here, and its length. -/
def remoteEffect : RemoteOp → Option (AccessOp × Nat)
  | .load n => some (.load, n)
  | .store bs => some (.store bs, bs.length)
  | .atomic o w b c => (remoteAtomic o c).map (fun x => (.atomic x b, if w then 8 else 4))
  | .arm n sc => some (.arm n.toNat sc.toNat, 16)
  | .arrive tx => some (.arrive (signExt tx.toNat 48), 16)
  | .retire => some (.retire, 16)
  | .joinEnd st => some (.joinEnd st.toNat, 16)
  | .joinFail c => some (.joinFail c.toNat, 16)
  | .syncCount n => some (.syncCount n, 16)
  | .slotCount n => some (.slotCount n, 16)
  | .barrier id => some (.barrier .pod 0 id, 0)

/-- R382: whether a request from another package is refused: a hole, a key slot that is not installed, or isolation. -/
def refusedHere (s : State) (pkg a n key : Nat) : Bool :=
  let r := regionOf a
  r == .hole || regionOf (a + n - 1) != r || (encrypted a && !(keySlotAt s key).installed) || Config.isolates pkg a

/-- R289, R379, R382: a request from another package comes in by its station and performs here, or is refused and recorded. -/
def serveRemote (pkg addr : Nat) (op : RemoteOp) (key : Nat) (s : State) : State :=
  let a := localOf addr
  let refuse : State := record { area := 2, event := 0x0206, tval := pkg, addr := addr, aux := addr } s
  match remoteEffect op with
  | none => refuse
  | some (.barrier z pl id, _) => barrierCount z pl id s
  | some x =>
    if refusedHere s pkg a x.2 key then refuse
    else if inMotion s a x.2 then inTicks 1 (.remoteRequest pkg addr op key) s
    else
      let u := s.free
      let s := fromStation pkg addr u { s with free := u + 1 }
      let r := performOp x.1 [⟨addr, x.2, key⟩] addr s
      if r.1.failed.any (fun f => f.1 == 0x6B) then refuse
      else byStation pkg addr r.2.free { r.2 with free := r.2.free + 1 }

/-- R382 -/
def execRemoteRequest (s : State) : Out :=
  match s.happening with
  | .remoteRequest p a o k => .next (serveRemote p a o k s)
  | _ => .next s

/-- R382: a burst to or from another package has had no answer. -/
def burstTimesOut (b : Burst) (s : State) : State :=
  let ps := if b.stage == 0 then b.src else b.dst
  let p := pkgOf ((ps.headD ⟨0, 0, 0⟩).pa)
  burstFails b 0xA1 (BitVec.ofNat 64 (if b.stage == 0 then b.srcVa else b.va)) (peerGive p b.len s)

/-- R382, R391: a request without a response in its time fails; a later response finds nothing. -/
def timesOut (id : Nat) (s : State) : State :=
  match accessAt s id with
  | some a =>
    if a.sent.isSome && !a.answered then
      let s := peerGive a.pkg a.load s
      failAccess { a with sent := none } 0xA1 (BitVec.ofNat 64 a.va) s
    else s
  | none =>
    match s.bursts.find? (fun b => b.id == id) with
    | some b => burstTimesOut b s
    | none => s

/-- R382 -/
def execRemoteTimeout (s : State) : Out :=
  match s.happening with
  | .remoteTimeout id => .next (timesOut id s)
  | _ => .next s

/-- R387: whether a burst has a request on a station that is not acknowledged. -/
def Burst.onStation (s : State) (l : Nat) (b : Burst) : Bool :=
  let p := if b.stage == 0 then b.src.headD ⟨pkgId s * 2 ^ 46, 0, 0⟩ else b.dst.headD ⟨pkgId s * 2 ^ 46, 0, 0⟩
  b.stage != 1 && pkgOf p.pa != pkgId s && stationFor s (pkgOf p.pa) p.pa == some l

/-- R387: the requests on a station that are not acknowledged end their contexts. -/
def failStation (l : Nat) (s : State) : State :=
  let as := s.accesses.filter (fun a => a.sent.isSome && !a.answered && stationFor s a.pkg a.pa == some l)
  let bs := s.bursts.filter (fun b => b.onStation s l)
  let s := as.foldl (fun s a => failAccess { a with sent := none } 0xA3 (BitVec.ofNat 64 l) (peerGive a.pkg a.load s)) s
  bs.foldl (fun s b =>
    let p := if b.stage == 0 then b.src.headD ⟨0, 0, 0⟩ else b.dst.headD ⟨0, 0, 0⟩
    burstFails b 0xA3 (BitVec.ofNat 64 l) (peerGive (pkgOf p.pa) b.len s)) s

/-- R383, R387: requests on a port that is out of service cannot complete. -/
def failPort (p : Nat) (s : State) : State :=
  ((netAt s (p / 4)).queue.filter (fun r => r.port == p)).foldl (fun s r => soon (.networkRequestFailure (p / 4) r.seq) s) s

/-- R387: a station or port is taken out of service. -/
def stopLink (l : Nat) (s : State) : State :=
  if !(linkAt s l).inService then s
  else
    let s := record { area := 2, event := 0x0203, tval := l } s
    let s := if l < 8 then failStation l s else failPort (l - 8) s
    modLink l (fun k => { k with inService := false }) s

/-- R387 -/
def execStationOutOfService (s : State) : Out :=
  match s.happening with
  | .stationOutOfService l => onLink l s (stopLink l)
  | _ => .next s

/-! ### Network engines (R265, R266, R373, R383) -/

/-- What a happening of the engines of an I/O die does, where the module has that die (R287). -/
def onEngine (e : Nat) (s : State) (k : State → State) : Out := if e < 2 then .next (k s) else .fault .noSuchUnit

/-- R266: bytes of the segment that follows those done. -/
def NetRequest.segment (r : NetRequest) : Nat := min 4096 (r.len - r.done)

/-- Replace a request of an engine, or drop it when it is complete. -/
def putRequest (e : Nat) (r : NetRequest) (s : State) : State :=
  let n := netAt s e
  setNet e { n with queue := if r.done < r.len then n.queue.map (fun x => if x.seq == r.seq then r else x)
    else n.queue.filter (fun x => x.seq != r.seq) } s

/-- Drop a request of an engine. -/
def dropRequest (e q : Nat) (s : State) : State :=
  setNet e { netAt s e with queue := (netAt s e).queue.filter (fun x => x.seq != q) } s

/-- R26: write bytes into pieces, those of another package there. -/
def writeRouted (t n order va : Nat) : List Piece → List Byte → State → State
  | [], _, s => s
  | p :: ps, bs, s =>
    writeRouted t n order va ps (bs.drop p.len)
      (if pkgOf p.pa == pkgId s then writeLocal p.key (localOf p.pa) (bs.take p.len) s
       else remoteUpdate t n order va false p (.store (bs.take p.len)) (((ctxOf s t).map Context.asid).getD 0) s)

/-- R26: the bytes of pieces, those of another package from the bytes `away` that it has returned for them in order. -/
def readRouted (s : State) : List Piece → List Byte → List Byte
  | [], _ => []
  | p :: ps, away =>
    if pkgOf p.pa == pkgId s then readLocal s p.key (localOf p.pa) p.len ++ readRouted s ps away
    else away.take p.len ++ readRouted s ps (away.drop p.len)

/-- R287, R289: a segment of a request goes out at its port; a READ's bytes come in instead. -/
def sendSegment (e : Nat) (r : NetRequest) (bs : List Byte) (s : State) : State :=
  let u := s.free
  let s := sendFlits (8 + r.port) (Config.linkFlits u) { s with free := u + 1 }
  if r.op == 2 then s else setNet e { netAt s e with out := (netAt s e).out ++ [.payload r.seq r.done bs] } s

/-- R26, R284, R285: the bytes that a segment reads in another package. -/
def segmentAway (e : Nat) (r : NetRequest) (n : Nat) (ps : List Piece) (s : State) : Fetch :=
  let away := ps.filter (fun p => pkgOf p.pa != pkgId s)
  if away.isEmpty then .bytes [] s
  else fetchAway r.taskid n (r.laddr.toNat + r.done) r.asid away (fun _ => .load) (.net e r.seq) s

/-- R288: in MODE 0 an earlier request of the context to the same endpoint delivers its segments first. -/
def netBehind (s : State) (r : NetRequest) : Bool :=
  r.mode == 0 && (s.net0.queue ++ s.net1.queue).any (fun x => x.taskid == r.taskid && x.peer == r.peer && decide (x.posted < r.posted))

/-- R266, R373, R375, R379, R390: one segment of a request: SEND and WRITE have read it at LADDR, a READ writes it there; then it is counted. -/
def netSegment (e : Nat) (r : NetRequest) (bytes : List Byte) (s : State) : State :=
  let k := r.segment
  let va := r.laddr.toNat + r.done
  match holder s r.taskid with
  | none => dropRequest e r.seq s
  | some x =>
    let count (s : State) : State :=
      let s := if r.csw == 0 then s else countBinding r.taskid (.sync r.csw) k r.order s
      putRequest e { r with done := r.done + k } s
    let fail (c : BitVec 8) (v : W64) : State := failTaskAt r.taskid va c v r.order (dropRequest e r.seq s)
    if k == 0 then putRequest e r s
    else
      match copyPieces s x.1 x.2 (if r.op == 2 then .write else .read) (chunks va k) with
      | .error _ => fail 0x8B 0x08
      | .ok ps =>
        let mine := ps.filter (fun p => pkgOf p.pa == pkgId s)
        if mine.any (fun p => inMotion s (localOf p.pa) p.len) then inTicks 1 (.networkSegmentComplete e r.seq bytes) s
        else if (erasedKey s mine).isSome then fail 0xB1 (BitVec.ofNat 64 ((erasedKey s mine).getD 0))
        else if r.op == 2 then
          if mine.any (fun p => partialBad s (localOf p.pa) p.len) then fail 0x6B (BitVec.ofNat 64 va)
          else count (sendSegment e r [] (writeRouted r.taskid x.1 r.order va ps ((List.range k).map (fun i => bytes.getD i 0)) s))
        else if mine.any (fun p => spanBad s (localOf p.pa) p.len) then fail 0x6B (BitVec.ofNat 64 va)
        else
          match segmentAway e r x.1 ps s with
          | .waits s => s
          | .fails c v => fail c v
          | .bytes bs s => count (sendSegment e r (readRouted s ps bs) s)

/-- R266 -/
def execNetworkSegmentComplete (s : State) : Out :=
  match s.happening with
  | .networkSegmentComplete e q bs =>
    onEngine e s (fun s =>
      match (netAt s e).queue.find? (fun r => r.seq == q) with
      | none => s
      | some r => if netBehind s r then s else netSegment e r bs s)
  | _ => .next s

/-- R383 -/
def execNetworkRequestFailure (s : State) : Out :=
  match s.happening with
  | .networkRequestFailure e q =>
    onEngine e s (fun s =>
      match (netAt s e).queue.find? (fun r => r.seq == q) with
      | none => s
      | some r => failTaskAt r.taskid (r.laddr.toNat + r.done) 0xA5 (BitVec.ofNat 64 q) r.order (dropRequest e q s))
  | _ => .next s

end Sys2Proof.Machine
end

