-- ==== Sys2Proof/Machine/Dispatch.lean ====
section
/-! DEFINITION. What every row of the opcode table does: one arm a row, each a direct call of the row's own meaning. -/

namespace Sys2Proof.Machine

/-- The effect of an operation on the slot being executed, or of the happening that is being performed. -/
def exec (i : Instr) (s : State) : Host.Outcome State Fault Refusal :=
  match i with
  | .nop x => Sys2Proof.Machine.execNop x s
  | .li d v => Sys2Proof.Machine.execLi d v s
  | .lih d v => Sys2Proof.Machine.execLih d v s
  | .mov d a => Sys2Proof.Machine.execMov d a s
  | .add d a b => Sys2Proof.Machine.execAdd d a b s
  | .addi d a v => Sys2Proof.Machine.execAddi d a v s
  | .sub d a b => Sys2Proof.Machine.execSub d a b s
  | .mul d a b => Sys2Proof.Machine.execMul d a b s
  | .mulhs d a b => Sys2Proof.Machine.execMulhs d a b s
  | .mulhu d a b => Sys2Proof.Machine.execMulhu d a b s
  | .divs d a b => Sys2Proof.Machine.execDivs d a b s
  | .divu d a b => Sys2Proof.Machine.execDivu d a b s
  | .rems d a b => Sys2Proof.Machine.execRems d a b s
  | .remu d a b => Sys2Proof.Machine.execRemu d a b s
  | .and d a b => Sys2Proof.Machine.execAnd d a b s
  | .andi d a v => Sys2Proof.Machine.execAndi d a v s
  | .or d a b => Sys2Proof.Machine.execOr d a b s
  | .ori d a v => Sys2Proof.Machine.execOri d a v s
  | .xor d a b => Sys2Proof.Machine.execXor d a b s
  | .xori d a v => Sys2Proof.Machine.execXori d a v s
  | .andn d a b => Sys2Proof.Machine.execAndn d a b s
  | .shl d a b => Sys2Proof.Machine.execShl d a b s
  | .shli d a v => Sys2Proof.Machine.execShli d a v s
  | .shr d a b => Sys2Proof.Machine.execShr d a b s
  | .shri d a v => Sys2Proof.Machine.execShri d a v s
  | .sra d a b => Sys2Proof.Machine.execSra d a b s
  | .srai d a v => Sys2Proof.Machine.execSrai d a v s
  | .ror d a b => Sys2Proof.Machine.execRor d a b s
  | .clz d a => Sys2Proof.Machine.execClz d a s
  | .ctz d a => Sys2Proof.Machine.execCtz d a s
  | .popc d a => Sys2Proof.Machine.execPopc d a s
  | .mins d a b => Sys2Proof.Machine.execMins d a b s
  | .maxs d a b => Sys2Proof.Machine.execMaxs d a b s
  | .minu d a b => Sys2Proof.Machine.execMinu d a b s
  | .maxu d a b => Sys2Proof.Machine.execMaxu d a b s
  | .sel d a b p => Sys2Proof.Machine.execSel d a b p s
  | .cmp c p a b => Sys2Proof.Machine.execCmp c p a b s
  | .cmpi c p a v => Sys2Proof.Machine.execCmpi c p a v s
  | .plog d a b o => Sys2Proof.Machine.execPlog d a b o s
  | .agen d a b l => Sys2Proof.Machine.execAgen d a b l s
  | .bxt d a b z => Sys2Proof.Machine.execBxt d a b z s
  | .bin d a b => Sys2Proof.Machine.execBin d a b s
  | .fadds d a b => Sys2Proof.Machine.execFadds d a b s
  | .fmuls d a b => Sys2Proof.Machine.execFmuls d a b s
  | .ffmas d a b => Sys2Proof.Machine.execFfmas d a b s
  | .fcmps c p a b => Sys2Proof.Machine.execFcmps c p a b s
  | .fcvts d a k => Sys2Proof.Machine.execFcvts d a k s
  | .csrr d n => Sys2Proof.Machine.execCsrr d n s
  | .csrw a n => Sys2Proof.Machine.execCsrw a n s
  | .crd d n => Sys2Proof.Machine.execCrd d n s
  | .pushm a b f => Sys2Proof.Machine.execPushm a b f s
  | .popm a b f => Sys2Proof.Machine.execPopm a b f s
  | .br v => Sys2Proof.Machine.execBr v s
  | .call d v => Sys2Proof.Machine.execCall d v s
  | .callr d a => Sys2Proof.Machine.execCallr d a s
  | .ret a => Sys2Proof.Machine.execRet a s
  | .jr a v => Sys2Proof.Machine.execJr a v s
  | .loop l a => Sys2Proof.Machine.execLoop l a s
  | .loopImm l c => Sys2Proof.Machine.execLoopImm l c s
  | .loopx k => Sys2Proof.Machine.execLoopx k s
  | .repv z a => Sys2Proof.Machine.execRepv z a s
  | .repvImm z c => Sys2Proof.Machine.execRepvImm z c s
  | .layer n => Sys2Proof.Machine.execLayer n s
  | .lret => Sys2Proof.Machine.execLret s
  | .tspawn a => Sys2Proof.Machine.execTspawn a s
  | .texit a => Sys2Proof.Machine.execTexit a s
  | .tjoin d a => Sys2Proof.Machine.execTjoin d a s
  | .waitSw z a b => Sys2Proof.Machine.execWaitSw z a b s
  | .waitBs z a b => Sys2Proof.Machine.execWaitBs z a b s
  | .yield => Sys2Proof.Machine.execYield s
  | .hwin n => Sys2Proof.Machine.execHwin n s
  | .opsel k => Sys2Proof.Machine.execOpsel k s
  | .fidset f => Sys2Proof.Machine.execFidset f s
  | .psub a b z => Sys2Proof.Machine.execPsub a b z s
  | .rdtick d => Sys2Proof.Machine.execRdtick d s
  | .trap n => Sys2Proof.Machine.execTrap n s
  | .svc n => Sys2Proof.Machine.execSvc n s
  | .eret => Sys2Proof.Machine.execEret s
  | .tlbir a => Sys2Proof.Machine.execTlbir a s
  | .tlbirAll a => Sys2Proof.Machine.execTlbirAll a s
  | .ldbS d a f v => Sys2Proof.Machine.execLdbS d a f v s
  | .ldbU d a f v => Sys2Proof.Machine.execLdbU d a f v s
  | .ldhS d a f v => Sys2Proof.Machine.execLdhS d a f v s
  | .ldhU d a f v => Sys2Proof.Machine.execLdhU d a f v s
  | .ldwS d a f v => Sys2Proof.Machine.execLdwS d a f v s
  | .ldwU d a f v => Sys2Proof.Machine.execLdwU d a f v s
  | .lddS d a f v => Sys2Proof.Machine.execLddS d a f v s
  | .lddU d a f v => Sys2Proof.Machine.execLddU d a f v s
  | .stb d a f v => Sys2Proof.Machine.execStb d a f v s
  | .sth d a f v => Sys2Proof.Machine.execSth d a f v s
  | .stw d a f v => Sys2Proof.Machine.execStw d a f v s
  | .std d a f v => Sys2Proof.Machine.execStd d a f v s
  | .cas d a b o w => Sys2Proof.Machine.execCas d a b o w s
  | .fence z m => Sys2Proof.Machine.execFence z m s
  | .synci => Sys2Proof.Machine.execSynci s
  | .synca => Sys2Proof.Machine.execSynca s
  | .syncaAll => Sys2Proof.Machine.execSyncaAll s
  | .amoAdd d a b o w => Sys2Proof.Machine.execAmoAdd d a b o w s
  | .amoAnd d a b o w => Sys2Proof.Machine.execAmoAnd d a b o w s
  | .amoOr d a b o w => Sys2Proof.Machine.execAmoOr d a b o w s
  | .amoXor d a b o w => Sys2Proof.Machine.execAmoXor d a b o w s
  | .amoMin d a b o w => Sys2Proof.Machine.execAmoMin d a b o w s
  | .amoMax d a b o w => Sys2Proof.Machine.execAmoMax d a b o w s
  | .amoMinu d a b o w => Sys2Proof.Machine.execAmoMinu d a b o w s
  | .amoMaxu d a b o w => Sys2Proof.Machine.execAmoMaxu d a b o w s
  | .amoSwap d a b o w => Sys2Proof.Machine.execAmoSwap d a b o w s
  | .amoFadd32 d a b o => Sys2Proof.Machine.execAmoFadd32 d a b o s
  | .bars z a b => Sys2Proof.Machine.execBars z a b s
  | .bara d a b => Sys2Proof.Machine.execBara d a b s
  | .barrt a => Sys2Proof.Machine.execBarrt a s
  | .barn z v => Sys2Proof.Machine.execBarn z v s
  | .barnA z v => Sys2Proof.Machine.execBarnA z v s
  | .copen d a b => Sys2Proof.Machine.execCopen d a b s
  | .chold d a b => Sys2Proof.Machine.execChold d a b s
  | .cclose a => Sys2Proof.Machine.execCclose a s
  | .cstat d a => Sys2Proof.Machine.execCstat d a s
  | .npost d a => Sys2Proof.Machine.execNpost d a s
  | .vadd v d a b m => Sys2Proof.Machine.execVadd v d a b m s
  | .vsub v d a b m => Sys2Proof.Machine.execVsub v d a b m s
  | .vmul v d a b m => Sys2Proof.Machine.execVmul v d a b m s
  | .vfma v d a b m => Sys2Proof.Machine.execVfma v d a b m s
  | .vfms v d a b m => Sys2Proof.Machine.execVfms v d a b m s
  | .vfnma v d a b m => Sys2Proof.Machine.execVfnma v d a b m s
  | .vmin v d a b m => Sys2Proof.Machine.execVmin v d a b m s
  | .vmax v d a b m => Sys2Proof.Machine.execVmax v d a b m s
  | .vabs v d a m => Sys2Proof.Machine.execVabs v d a m s
  | .vneg v d a m => Sys2Proof.Machine.execVneg v d a m s
  | .vrcp v d a m => Sys2Proof.Machine.execVrcp v d a m s
  | .vrsq v d a m => Sys2Proof.Machine.execVrsq v d a m s
  | .vexp2 v d a m => Sys2Proof.Machine.execVexp2 v d a m s
  | .vlog2 v d a m => Sys2Proof.Machine.execVlog2 v d a m s
  | .viadd v d a b m => Sys2Proof.Machine.execViadd v d a b m s
  | .visub v d a b m => Sys2Proof.Machine.execVisub v d a b m s
  | .vimul v d a b m => Sys2Proof.Machine.execVimul v d a b m s
  | .vimad v d a b m => Sys2Proof.Machine.execVimad v d a b m s
  | .vimin v d a b m => Sys2Proof.Machine.execVimin v d a b m s
  | .vimax v d a b m => Sys2Proof.Machine.execVimax v d a b m s
  | .vand v d a b m => Sys2Proof.Machine.execVand v d a b m s
  | .vor v d a b m => Sys2Proof.Machine.execVor v d a b m s
  | .vxor v d a b m => Sys2Proof.Machine.execVxor v d a b m s
  | .vnot v d a m => Sys2Proof.Machine.execVnot v d a m s
  | .vshl v d a b m => Sys2Proof.Machine.execVshl v d a b m s
  | .vshr v d a b m => Sys2Proof.Machine.execVshr v d a b m s
  | .vsra v d a b m => Sys2Proof.Machine.execVsra v d a b m s
  | .vcmp v c d a b m => Sys2Proof.Machine.execVcmp v c d a b m s
  | .vicmp v c d a b m => Sys2Proof.Machine.execVicmp v c d a b m s
  | .vsel v d a b k => Sys2Proof.Machine.execVsel v d a b k s
  | .vcx v x a b m => Sys2Proof.Machine.execVcx v x a b m s
  | .vcvt v d a p t m => Sys2Proof.Machine.execVcvt v d a p t m s
  | .vqnt v d a p f => Sys2Proof.Machine.execVqnt v d a p f s
  | .vdqnt v d a p m => Sys2Proof.Machine.execVdqnt v d a p m s
  | .vhist v a m => Sys2Proof.Machine.execVhist v a m s
  | .vhclrRd v d => Sys2Proof.Machine.execVhclrRd v d s
  | .vhclr v => Sys2Proof.Machine.execVhclr v s
  | .vhclrRdc v d => Sys2Proof.Machine.execVhclrRdc v d s
  | .vtag v d a t m => Sys2Proof.Machine.execVtag v d a t m s
  | .vreds v d a o m => Sys2Proof.Machine.execVreds v d a o m s
  | .vscan v d a o m => Sys2Proof.Machine.execVscan v d a o m s
  | .vperm v d a b m => Sys2Proof.Machine.execVperm v d a b m s
  | .vshuf v d a b p => Sys2Proof.Machine.execVshuf v d a b p s
  | .vbcastS v d a t => Sys2Proof.Machine.execVbcastS v d a t s
  | .vbcastL v d a k => Sys2Proof.Machine.execVbcastL v d a k s
  | .viota v d a b m => Sys2Proof.Machine.execViota v d a b m s
  | .vmov v d a m => Sys2Proof.Machine.execVmov v d a m s
  | .vxfer v d a m => Sys2Proof.Machine.execVxfer v d a m s
  | .mlog v d a b o => Sys2Proof.Machine.execMlog v d a b o s
  | .mpop v d a m => Sys2Proof.Machine.execMpop v d a m s
  | .mffs v d a m => Sys2Proof.Machine.execMffs v d a m s
  | .mmovs v d a => Sys2Proof.Machine.execMmovs v d a s
  | .mfroms v d a => Sys2Proof.Machine.execMfroms v d a s
  | .ldv v d a t m => Sys2Proof.Machine.execLdv v d a t m s
  | .stv v a b m => Sys2Proof.Machine.execStv v a b m s
  | .ldvs v d a b m => Sys2Proof.Machine.execLdvs v d a b m s
  | .gath v d a b m => Sys2Proof.Machine.execGath v d a b m s
  | .scat v d a b m => Sys2Proof.Machine.execScat v d a b m s
  | .tcfg d a => Sys2Proof.Machine.execTcfg d a s
  | .tcfgRd d a => Sys2Proof.Machine.execTcfgRd d a s
  | .tzero d => Sys2Proof.Machine.execTzero d s
  | .tld d a b n => Sys2Proof.Machine.execTld d a b n s
  | .tst d a b n => Sys2Proof.Machine.execTst d a b n s
  | .trwr d a b => Sys2Proof.Machine.execTrwr d a b s
  | .trrd d a b => Sys2Proof.Machine.execTrrd d a b s
  | .tcwr d a b => Sys2Proof.Machine.execTcwr d a b s
  | .tcrd d a b => Sys2Proof.Machine.execTcrd d a b s
  | .tmsk d a => Sys2Proof.Machine.execTmsk d a s
  | .tmskRd d a => Sys2Proof.Machine.execTmskRd d a s
  | .mma d a b n => Sys2Proof.Machine.execMma d a b n s
  | .mmac d a b n => Sys2Proof.Machine.execMmac d a b n s
  | .mmab d a b n => Sys2Proof.Machine.execMmab d a b n s
  | .aczF d => Sys2Proof.Machine.execAczF d s
  | .aczI d => Sys2Proof.Machine.execAczI d s
  | .acrd d a b => Sys2Proof.Machine.execAcrd d a b s
  | .acwr d a b => Sys2Proof.Machine.execAcwr d a b s
  | .accvt d a n => Sys2Proof.Machine.execAccvt d a n s
  | .rkdecl d v k r => Sys2Proof.Machine.execRkdecl d v k r s
  | .rkrel d => Sys2Proof.Machine.execRkrel d s
  | .rkins d a b m => Sys2Proof.Machine.execRkins d a b m s
  | .rkacc d a n => Sys2Proof.Machine.execRkacc d a n s
  | .rkmerge d a => Sys2Proof.Machine.execRkmerge d a s
  | .rkst d a n => Sys2Proof.Machine.execRkst d a n s
  | .rkld d a => Sys2Proof.Machine.execRkld d a s
  | .rkth d a => Sys2Proof.Machine.execRkth d a s
  | .rklen d a => Sys2Proof.Machine.execRklen d a s
  | .cdim e l a b => Sys2Proof.Machine.execCdim e l a b s
  | .cset e t a b f => Sys2Proof.Machine.execCset e t a b f s
  | .clab e l => Sys2Proof.Machine.execClab e l s
  | .cpy e r q h a z => Sys2Proof.Machine.execCpy e r q h a z s
  | .cwm e h a b => Sys2Proof.Machine.execCwm e h a b s
  | .cwmOff e h => Sys2Proof.Machine.execCwmOff e h s
  | .csync e h a => Sys2Proof.Machine.execCsync e h a s
  | .csyncBs e h a => Sys2Proof.Machine.execCsyncBs e h a s
  | .ccan e h => Sys2Proof.Machine.execCcan e h s
  | .ccanAll e h => Sys2Proof.Machine.execCcanAll e h s
  | .cqry e d h v => Sys2Proof.Machine.execCqry e d h v s
  | .csend e r h a b z => Sys2Proof.Machine.execCsend e r h a b z s
  | .kportWrite => Sys2Proof.Machine.execKportWrite s
  | .taskAcceptance => Sys2Proof.Machine.execTaskAcceptance s
  | .kioskSelect => Sys2Proof.Machine.execKioskSelect s
  | .preload => Sys2Proof.Machine.execPreload s
  | .preloadRangeUnblock => Sys2Proof.Machine.execPreloadRangeUnblock s
  | .entryAging => Sys2Proof.Machine.execEntryAging s
  | .balanceSample => Sys2Proof.Machine.execBalanceSample s
  | .balanceDecide => Sys2Proof.Machine.execBalanceDecide s
  | .balanceArrival => Sys2Proof.Machine.execBalanceArrival s
  | .swap => Sys2Proof.Machine.execSwap s
  | .spill => Sys2Proof.Machine.execSpill s
  | .budgetExhausted => Sys2Proof.Machine.execBudgetExhausted s
  | .joinUpdate => Sys2Proof.Machine.execJoinUpdate s
  | .failedJoinUpdate => Sys2Proof.Machine.execFailedJoinUpdate s
  | .barrierRelease => Sys2Proof.Machine.execBarrierRelease s
  | .barcfgWrite => Sys2Proof.Machine.execBarcfgWrite s
  | .deferredTrap => Sys2Proof.Machine.execDeferredTrap s
  | .contextEnd => Sys2Proof.Machine.execContextEnd s
  | .contextLost => Sys2Proof.Machine.execContextLost s
  | .kactAddBudget => Sys2Proof.Machine.execKactAddBudget s
  | .kactKill => Sys2Proof.Machine.execKactKill s
  | .kactRerun => Sys2Proof.Machine.execKactRerun s
  | .matrixComplete => Sys2Proof.Machine.execMatrixComplete s
  | .railSettled => Sys2Proof.Machine.execRailSettled s
  | .opSettled => Sys2Proof.Machine.execOpSettled s
  | .stallBundle => Sys2Proof.Machine.execStallBundle s
  | .pwrctlWrite => Sys2Proof.Machine.execPwrctlWrite s
  | .boostLeaseRequest => Sys2Proof.Machine.execBoostLeaseRequest s
  | .boostLeaseAnswer => Sys2Proof.Machine.execBoostLeaseAnswer s
  | .boostLeaseEnd => Sys2Proof.Machine.execBoostLeaseEnd s
  | .boostLeaseRevoke => Sys2Proof.Machine.execBoostLeaseRevoke s
  | .sensorSample => Sys2Proof.Machine.execSensorSample s
  | .thermalThrottle => Sys2Proof.Machine.execThermalThrottle s
  | .migration => Sys2Proof.Machine.execMigration s
  | .rackBudgetMessage => Sys2Proof.Machine.execRackBudgetMessage s
  | .rackBudgetHoldExpiry => Sys2Proof.Machine.execRackBudgetHoldExpiry s
  | .hostWrite => Sys2Proof.Machine.execHostWrite s
  | .hostRead => Sys2Proof.Machine.execHostRead s
  | .hostEntryPerform => Sys2Proof.Machine.execHostEntryPerform s
  | .ingressAgeExpiry => Sys2Proof.Machine.execIngressAgeExpiry s
  | .hostRequestAgeExpiry => Sys2Proof.Machine.execHostRequestAgeExpiry s
  | .hwcfgDrain => Sys2Proof.Machine.execHwcfgDrain s
  | .tdispRequest => Sys2Proof.Machine.execTdispRequest s
  | .spdmRequest => Sys2Proof.Machine.execSpdmRequest s
  | .keySlotInstall => Sys2Proof.Machine.execKeySlotInstall s
  | .fwhoGo => Sys2Proof.Machine.execFwhoGo s
  | .handoverTrialStart => Sys2Proof.Machine.execHandoverTrialStart s
  | .heartbeat => Sys2Proof.Machine.execHeartbeat s
  | .heartbeatIntervalEnd => Sys2Proof.Machine.execHeartbeatIntervalEnd s
  | .handoverCommit => Sys2Proof.Machine.execHandoverCommit s
  | .oldInstanceHeartbeatMiss => Sys2Proof.Machine.execOldInstanceHeartbeatMiss s
  | .coldReset => Sys2Proof.Machine.execColdReset s
  | .warmReset => Sys2Proof.Machine.execWarmReset s
  | .fpermWrite => Sys2Proof.Machine.execFpermWrite s
  | .conntabWrite => Sys2Proof.Machine.execConntabWrite s
  | .errbaseWrite => Sys2Proof.Machine.execErrbaseWrite s
  | .registerWrite => Sys2Proof.Machine.execRegisterWrite s
  | .linkKeyRotation => Sys2Proof.Machine.execLinkKeyRotation s
  | .keySelectorSwitch => Sys2Proof.Machine.execKeySelectorSwitch s
  | .keySlotRetire => Sys2Proof.Machine.execKeySlotRetire s
  | .keyInstallTimeout => Sys2Proof.Machine.execKeyInstallTimeout s
  | .keyUseLimit => Sys2Proof.Machine.execKeyUseLimit s
  | .turnstileWindow => Sys2Proof.Machine.execTurnstileWindow s
  | .copyCommandStart => Sys2Proof.Machine.execCopyCommandStart s
  | .copyBurst => Sys2Proof.Machine.execCopyBurst s
  | .burstPerform => Sys2Proof.Machine.execBurstPerform s
  | .copyCommandComplete => Sys2Proof.Machine.execCopyCommandComplete s
  | .lanternLaunch => Sys2Proof.Machine.execLanternLaunch s
  | .lanternHop => Sys2Proof.Machine.execLanternHop s
  | .lanternAck => Sys2Proof.Machine.execLanternAck s
  | .lanternTimeout => Sys2Proof.Machine.execLanternTimeout s
  | .circuitBeatArrival => Sys2Proof.Machine.execCircuitBeatArrival s
  | .markArrival => Sys2Proof.Machine.execMarkArrival s
  | .releaseNotice => Sys2Proof.Machine.execReleaseNotice s
  | .flowDemotion => Sys2Proof.Machine.execFlowDemotion s
  | .teardownAck => Sys2Proof.Machine.execTeardownAck s
  | .commitNotice => Sys2Proof.Machine.execCommitNotice s
  | .streamStart => Sys2Proof.Machine.execStreamStart s
  | .segmentCommit => Sys2Proof.Machine.execSegmentCommit s
  | .circuitLeaseExpiry => Sys2Proof.Machine.execCircuitLeaseExpiry s
  | .glasshouseElementFailure => Sys2Proof.Machine.execGlasshouseElementFailure s
  | .accessPerform => Sys2Proof.Machine.execAccessPerform s
  | .accessResponse => Sys2Proof.Machine.execAccessResponse s
  | .ualinkResponse => Sys2Proof.Machine.execUalinkResponse s
  | .remoteRequest => Sys2Proof.Machine.execRemoteRequest s
  | .remoteTimeout => Sys2Proof.Machine.execRemoteTimeout s
  | .linkReplay => Sys2Proof.Machine.execLinkReplay s
  | .stationOutOfService => Sys2Proof.Machine.execStationOutOfService s
  | .networkSegmentComplete => Sys2Proof.Machine.execNetworkSegmentComplete s
  | .networkRequestFailure => Sys2Proof.Machine.execNetworkRequestFailure s
  | .correctedError => Sys2Proof.Machine.execCorrectedError s
  | .rowTestComplete => Sys2Proof.Machine.execRowTestComplete s
  | .patrolScrub => Sys2Proof.Machine.execPatrolScrub s
  | .interleaveInstall => Sys2Proof.Machine.execInterleaveInstall s
  | .tableDrainComplete => Sys2Proof.Machine.execTableDrainComplete s
  | .unitMove => Sys2Proof.Machine.execUnitMove s
  | .resultArrival => Sys2Proof.Machine.execResultArrival s
  | .illegalBundle => Sys2Proof.Machine.execIllegalBundle s
  | .unassignedOpcode => Sys2Proof.Machine.execUnassignedOpcode s

end Sys2Proof.Machine
end

