-- ==== Sys2Proof/Machine/Issue.lean ====
section
/-! DEFINITION. What one step performs: a happening that is due, or the turn of a core: what its bundle boundary brings
first (results, a swap, a deferred trap, a bundle fault), the issue of a bundle, and the slots of the bundle one by one. -/

namespace Sys2Proof.Machine

/-- Perform a happening of the current core, or one that is due; an input to a firmware role being replaced is journalled (R311). -/
def happen (h : Happening) (s : State) : Out := exec h.instr { journalled h s with happening := h }

/-- R66: a BARCFG write takes effect before the arrivals of its tick, so one that comes within a tick takes effect as the next begins. -/
def awaitsTick (s : State) : Happening → Bool
  | .barcfgWrite _ _ => s.time % Config.unitsPerTick != 0
  | _ => false

/-- Perform a happening taken from the agenda: one that a frozen firmware role has to serve waits (R311), and so does one that takes effect
as a tick begins (R66). -/
def happenDue (h : Happening) (s : State) : Out :=
  if heldBack s h then .next (inTicks 1 h s)
  else if awaitsTick s h then .next (atTime ((tickNow s + 1) * Config.unitsPerTick) h s)
  else happen h s

/-- What follows an instruction that has been executed. -/
def finished (b : BitVec 128) (y : Slot) (i : Instr) : Out → Out
  | .next s => .next (finishSlot b y i s)
  | o => o

/-- R129, R347: the group has been open for eight bundles when slot 0 of a further one comes. -/
def groupTooLong (b : BitVec 128) (s : State) : Bool :=
  firstSlotOf b s.core.slot.k && s.core.act.group.isOpen && 8 ≤ s.core.act.group.bundles

/-- R347: the trap of a group that is open too long falls on slot 0. -/
def tooLong (b : BitVec 128) (s : State) : State :=
  takeTrap 0x0C (BitVec.ofNat 64 s.core.act.group.firstPc) 0 0 (slotUnitOf (slotWord b 0).toNat) false s

/-- R127, R177, R346: slot `y`, whose encoding fault is `own`, is disabled; it would execute as `i`. Stepping moves no Trellis
destination, so it takes the position that it names as written. -/
def runDisabled (b : BitVec 128) (y : Slot) (i : Instr) (own : Option (BitVec 8 × W64)) (s : State) : Out :=
  match own with
  | some f => .next (trap f.1 f.2 s)
  | none => .next (commitSlot b y i (disabledEffect y.op s))

/-- R177, R346, R347: the encoding fault of slot `y`, executed as `i`: the specifiers of a repeated slot are judged as written, its
dependences as stepped. -/
def ownFault (c : Context) (i : Instr) (y : Slot) (s : State) : Option (BitVec 8 × W64) :=
  if s.core.slot.repOff == 0 then slotFault y.op s
  else
    match (slotFault y.op (modSlot (fun x => { x with repOff := 0 }) s)).filter (fun f => decide (f.1 < 0x0B#8)) with
    | some f => some f
    | none => if stepPasses (repeatOff c) s.core.slot y.op then none else slotFault i s

/-- R127, R177, R342, R347: an operation other than NOP at slot `k`: the causes met before its own, its guard, its effect. -/
def runOp (b : BitVec 128) (y : Slot) (s : State) : Out :=
  let c := s.core.act
  let e := bundleExt b s.core.slot.k
  let w := slotWord b s.core.slot.k
  let i := repeated c w y.op
  let guarded := e.gsel != 0 && c.group.dests.contains (.p e.gsel.toNat)
  let own := ownFault c i y s
  if guarded && !own.any (fun f => decide (f.1 ≤ 0x0B#8)) then .next (trap 0x0B (BitVec.ofNat 64 e.gsel.toNat) s)
  else if groupTooLong b s && !own.any (fun f => decide (f.1 < 0x0C#8)) then .next (tooLong b s)
  else
    match (if s.core.slot.repOff == 0 then none else own) with
    | some f => .next (trap f.1 f.2 s)
    | none =>
      if e.gsel != 0 && !c.resReady (.p e.gsel.toNat) then .next (finishSlot b y i (stall s))
      else if !guardOn e s then runDisabled b y i own s
      else if own.isNone && repeatRange b s then
        .next (trap 0x23 (BitVec.ofNat 64 (c.repc + ((repeatAt c).map Repeat.stride).getD 0 * 65536)) s)
      else finished b y i (exec i s)

/-- One slot of the bundle being executed. DESIGN CHOICE (assumption 54): a slot that an iteration of a repeat leaves out ends no group. -/
def runSlot (s : State) : Out :=
  let b := fetchBundle s.core
  let k := s.core.slot.k
  let w := slotWord b k
  let s := modAct (fun c => startGroup (c.putStw 0 2 k)) (slotAt b k s)
  if groupTooLong b s && (s.core.slot.hdr || repeatSkips s.core.act b w) then .next (tooLong b s)
  else if repeatSkips s.core.act b w then .next (nextSlot b s)
  else
    match decodeSlot w with
    | .error .unassigned => happen .unassignedOpcode s
    | .error _ => .next (trap 0x05 (BitVec.ofNat 64 w.toNat) s)
    | .ok y =>
      if isNop y.op then
        if groupTooLong b s then .next (tooLong b s)
        else .next (commitSlot b y y.op s)
      else runOp b y s

/-- R131: a bundle whose first slot stalls with nothing begun has not issued. -/
def firstSlot (b : BitVec 128) (before : State) : Out → Out
  | .next s =>
    if s.core.slot.issued && s.core.slot.ended == .stalled && s.core.act.wait == .none then .next (waitCycle b before)
    else .next s
  | o => o

/-- R131, R296, R345: the bundle at PC, which has not issued. -/
def runBundle (s : State) : Out :=
  let c := s.core.act
  let b := fetchBundle s.core
  if lineUnfilled s.core then .next (stallCycle s)
  else if (bundleFault b).isSome then happen .illegalBundle s
  else if c.drain && !c.results.isEmpty then .next (stallCycle s)
  else
    let s := modAct (fun c => { c with drain := false }) s
    if !bundleReady b c.slotres s then .next (waitCycle b s)
    else if energyStalls (bundleWeight c b) s then happen (.stallBundle s.lcn) s
    else firstSlot b s (runSlot (issue b s))

/-- R131, R136: the first result of the active context that is due. -/
def dueResult (d : Core) : Option Nat :=
  (d.act.results.find? (fun r => r.due.any (fun t => decide (t ≤ d.cycle)))).map Result.rid

/-- R226: the first matrix instruction or atomic of the active context that completes. -/
def dueCompletion (d : Core) : Option Nat :=
  (d.act.completions.find? (fun m => m.due.any (fun t => decide (t ≤ d.cycle)))).map Completion.mid

/-- R242: whether an RKMERGE or RKLD is in flight, its image on the way. -/
def Context.imageAway (c : Context) : Bool := c.accs.any (fun a => a.wait.isSome)

/-- R55, R56, R183, R242, R302: whether a requested swap or migration begins at this boundary. An RKMERGE or RKLD in flight completes into
the departing bank first (assumption 61). -/
def swapBegins (d : Core) : Bool :=
  !d.act.imageAway &&
    match d.swapReq with
    | none => false
    | some (.migrated _) => !d.act.group.isOpen
    | some (.yielded _) | some .exited => !d.slot.issued
    | some _ => true

/-- What a swap request performs. -/
def swapHappening (n : Nat) (d : Core) : Happening :=
  match d.swapReq with
  | some (.migrated t) => .migration n t
  | _ => .swap n

/-- R55, R362: whether everything of the active context that came before the present cycle, the first of a swap, has been seen to. -/
def settledBefore (d : Core) : Bool :=
  d.act.completions.all (fun m => !m.due.any (fun t => decide (t < d.cycle))) && !(d.atBoundary && !d.act.deferred.isEmpty)

/-- The turn of the current core at a bundle boundary, or at a slot that has stalled. -/
def coreTurn (s : State) : Out :=
  let d := s.core
  if swapBegins d && settledBefore d then happen (swapHappening s.lcn d) s
  else
  match dueResult d with
  | some r => happen (.resultArrival s.lcn r) s
  | none =>
    match dueCompletion d with
    | some m => happen (.matrixComplete s.lcn m) s
    | none =>
      if d.atBoundary && !d.act.deferred.isEmpty then happen (.deferredTrap s.lcn) s
      else if d.slot.issued then runSlot (countStall s)
      else runBundle s

/-! ### What comes next -/

/-- R50, R55, R302, R358: whether a core issues bundles: it holds a context that has not ended and is not leaving. -/
def Core.live (d : Core) : Bool := d.act.task.isSome && d.act.ending.isNone && d.leaving == .no

/-- The live core whose cycle begins first, and when; of several the lowest linear core number (R118). -/
def firstCore (s : State) : Option (Nat × Nat) :=
  (allCores s).foldl (fun m e =>
    if !e.2.live then m
    else match m with
      | none => some (e.1, e.2.time)
      | some x => if e.2.time < x.2 then some (e.1, e.2.time) else m) none

/-- What a step performs: a happening that is due no later than any core's cycle, the turn of a core, or the numbering of the reports of
a tick that is over. -/
inductive Choice where
  | event (t : Nat) (h : Happening)
  | turn (n t : Nat)
  | reports
  | idle
  deriving DecidableEq, Repr

/-- Whether a choice is made at a time whose tick is the present one. -/
def Choice.thisTick (s : State) : Choice → Bool
  | .event t _ => t / Config.unitsPerTick ≤ tickNow s
  | .turn _ t => t / Config.unitsPerTick ≤ tickNow s
  | _ => false

/-- R114, R120, R121: what comes next of the happenings and the cores' turns: happenings of level 0 come before the cycles that begin at the same time, the others after. -/
def comesNext (s : State) : Choice :=
  match s.agenda.head?, firstCore s with
  | some e, some c => if e.1 < c.2 || (e.1 == c.2 && level s e.2 == 0) then .event e.1 e.2 else .turn c.1 c.2
  | some e, none => .event e.1 e.2
  | none, some c => .turn c.1 c.2
  | none, none => .idle

/-- R370: what a step performs; before the machine leaves a tick, the reports of that tick are numbered. -/
def choose (s : State) : Choice :=
  let c := comesNext s
  if s.reports.isEmpty || c.thisTick s then c else .reports

/-- Whether the current core is in the middle of a bundle, with no time to pass before its next slot. -/
def midBundle (s : State) : Bool := s.core.live && s.core.slot.issued && s.core.slot.ended == .committed

/-- Perform the choice. -/
def perform (s : State) : Choice → Out
  | .event t h => happenDue h { s with agenda := s.agenda.tail, time := max s.time t }
  | .turn n t => coreTurn { makeCurrent n s with time := max s.time t }
  | .reports => .next (numberReports s)
  | .idle => .next s

end Sys2Proof.Machine
end

