-- ==== Sys2Proof/Machine/Step.lean ====
section
/-! DEFINITION. One step of the machine, and a state whose next step runs a given instruction word. -/

namespace Sys2Proof.Machine

/-- One step: the next slot of the bundle being executed, else a happening that is due or the turn of a core. -/
def step (s : State) : Host.Outcome State Fault Refusal :=
  if midBundle s then runSlot s else perform s (choose s)

/-- The task of the context in which a word is placed: the fields of a descriptor of zeros. -/
def placedTask : Task :=
  ⟨0, ⟨0, 0, 0, [0, 0, 0, 0], 0, 0, 0, 0, 0, 0, 0⟩, 0, 0, 0, PreloadList.empty, none, 0, 0, false⟩

/-- Core 0 with a context whose next bundle holds the word in slot 0 and NOPs above it, nothing else pending, at time `t`. -/
def placeWord (t w : Nat) (d : Core) : Core :=
  { d with
    act := { d.act with
      task := some (d.act.task.getD placedTask), results := [], completions := [], deferred := [], wait := .none, rep := none
      xfer := none, soft := none, ending := none, drain := false, group := Group.none
      stw := BitVec.ofNat 64 (putFld d.act.stw.toNat 0 2 0), micpc := BitVec.ofNat 64 (putFld d.act.micpc.toNat 15 1 0) }
    imem := assocPut (d.act.pc.toNat / 16) (BitVec.ofNat 128 (w % 2 ^ 32)) d.imem
    preloads := [], swapReq := none, leaving := .no, slot := SlotCtx.idle, weights := [], time := t }

/-- `s` with an instruction word placed where the next step fetches: slot 0 of the bundle at the PC of the active context of
core 0, which is given a task where it has none. Nothing else is due before that bundle issues (assumption 1). -/
def State.withFetchWord (s : State) (nbits w : Nat) : State :=
  let s := makeCurrent 0 s
  { s with
    core := placeWord s.time (w % 2 ^ nbits) s.core
    others := s.others.map (fun e => (e.1, { e.2 with time := max (s.time + 1) e.2.time }))
    agenda := s.agenda.filter (fun e => decide (s.time < e.1)) }

end Sys2Proof.Machine
end

