-- ==== Sys2Proof/Machine/Placement.lean ====
section
/-! DEFINITION. Placement of a program's images: relocation records (R145), the value of a field (R146), and the refusals (R393). -/

namespace Sys2Proof.Machine

/-- R145: a relocation record. -/
structure Reloc where
  off : Nat
  lsb : Nat
  width : Nat
  kind : Nat
  flags : Nat
  src : Nat
  addend : Int
  deriving DecidableEq, Repr

/-- R145: the record that 16 bytes hold. -/
def parseReloc (b : List Byte) : Reloc :=
  ⟨leAt b 0 4, leAt b 4 1, leAt b 5 1, leAt b 6 1, leAt b 7 1, leAt b 8 4, signExt (leAt b 12 4) 32⟩

/-- R146: a placement: target CID by source CID, and target package by source package. -/
structure Placement where
  cores : List (Nat × Nat)
  packages : List (Nat × Nat)
  deriving DecidableEq, Repr

/-- R145: a program's images. -/
structure Images where
  code : List Byte
  data : List Byte
  deriving DecidableEq, Repr

/-- The least of a list of numbers. -/
def least : List Nat → Option Nat
  | [] => none
  | x :: r => match least r with
    | none => some x
    | some y => some (min x y)

/-- R146: the target of the lowest-numbered source core that a test names. -/
def Placement.lowest (p : Placement) (f : Nat → Bool) : Option Nat :=
  match least ((p.cores.filter (fun e => f e.1)).map (fun e => lcnOf e.1)) with
  | none => none
  | some n => p.cores.lookup (cidOf n)

/-- R146: Map(KIND, SRC). -/
def Placement.map (p : Placement) (kind src : Nat) : Option Nat :=
  match kind with
  | 0 => p.cores.lookup src
  | 1 => (p.cores.lookup (cidOf src)).map lcnOf
  | 2 => (p.lowest (fun c => quadOf (lcnOf c) == src)).map (fun c => quadOf (lcnOf c))
  | 3 => (p.lowest (fun c => dieOf (lcnOf c) == src)).map (fun c => dieOf (lcnOf c))
  | _ => p.packages.lookup src

/-- R128, R145: the immediate of an operation: its lowest bit in the slot, its width without a header, and whether it is signed. DESIGN CHOICE
(assumption 67): an operation whose immediate is none of R128's extended forms has no whole immediate that XIMM could name, and the placement is
refused. -/
def immField : Instr → Option (Nat × Nat × Bool)
  | .li _ _ | .br _ | .call _ _ => some (0, 15, true)
  | .lih _ _ | .layer _ => some (0, 15, false)
  | .addi _ _ _ | .andi _ _ _ | .cmpi _ _ _ _ | .jr _ _ => some (0, 9, true)
  | .ori _ _ _ | .xori _ _ _ | .shli _ _ _ | .shri _ _ _ | .srai _ _ _ | .csrr _ _ | .csrw _ _ | .crd _ _ | .hwin _ | .trap _ | .svc _ =>
    some (0, 9, false)
  | .loopImm _ _ | .repvImm _ _ => some (3, 12, false)
  | _ => none

/-- R393: whether a value fits a field. -/
def fits (v : Int) (width : Nat) (signed : Bool) : Bool :=
  if signed then decide (-(2 ^ (width - 1) : Int) ≤ v) && decide (v < 2 ^ (width - 1)) else decide (0 ≤ v) && decide (v < 2 ^ width)

/-- The little-endian word at a byte offset, replaced. -/
def setWord32 (b : List Byte) (off w : Nat) : List Byte := splice b off (toBytes 4 w)

/-- R126, R128, R393: write the immediate of the slot at a code offset, at the width it has in its bundle: in a bundle with a header the four
bits above the field stand in the slot's extension byte. -/
def placeImmediate (code : List Byte) (off : Nat) (v : Int) : Option (List Byte) :=
  let base := off / 16 * 16
  let k := off % 16 / 4
  let word := leAt code off 4
  let header := leAt code base 4
  let hdr := slotUnit (BitVec.ofNat 32 header) == 7
  match decodeSlot (BitVec.ofNat 32 word) with
  | .error _ => none
  | .ok y =>
    match immField y.op with
    | none => none
    | some (lo, w, signed) =>
      let width := if hdr then w + 4 else w
      if hdr && k == 0 || !fits v width signed then none
      else
        let raw := toBits width v
        let code := setWord32 code off (putFld word lo w (raw % 2 ^ w))
        some (if hdr then setWord32 code base (putFld header (8 * (k - 1)) 4 (raw / 2 ^ w)) else code)

/-- R145, R146, R393: one record applied, or refused; under XIMM the bit position and the width of the record are ignored. DESIGN CHOICE
(assumption 67): a record with XIMM and DATA both set names no slot and is refused. -/
def placeRecord (p : Placement) (r : Reloc) (m : Images) : Option Images :=
  let data := bit r.flags 2
  let image := if data then m.data else m.code
  if 4 < r.kind || 8 ≤ r.flags || !bit r.flags 1 && 32 < r.lsb + r.width || image.length < r.off + 4 then none
  else
    match p.map r.kind r.src with
    | none => none
    | some x =>
      let v : Int := x + r.addend
      if bit r.flags 1 then
        if data then none else (placeImmediate m.code r.off v).map (fun c => { m with code := c })
      else if !fits v r.width (bit r.flags 0) then none
      else
        let b := setWord32 image r.off (putFld (leAt image r.off 4) r.lsb r.width (toBits r.width v))
        some (if data then { m with data := b } else { m with code := b })

/-- R393: a program is placed whole or not at all; a placement on a core that is retired or does not exist is refused. -/
def place (s : State) (p : Placement) (rs : List Reloc) (m : Images) : Option Images :=
  if p.cores.any (fun e => !populated e.2 || !availBit s (lcnOf e.2)) then none
  else rs.foldl (fun m r => m.bind (placeRecord p r)) (some m)

end Sys2Proof.Machine
end

