-- ==== Sys2Proof/Safety.lean ====
section
/-! DEFINITION. The words in which claims are stated: a sound state, when the operation of a slot has its effect, and what the
write of a destination changes and leaves alone. -/

namespace Sys2Proof.Machine

/-! ### Sound states -/

/-- R35, R138, R165: PC is a bundle's address, MICPC and STW hold nothing in their reserved bits. -/
def Context.sound (c : Context) : Bool :=
  c.pc.toNat % 16 == 0 && c.micpc.toNat % 16 == 0 && c.micpc.toNat < 65536 && fld c.stw.toNat 9 7 == 0 && fld c.stw.toNat 37 3 == 0 && fld c.stw.toNat 45 19 == 0

/-- The invariant of memory. -/
def State.memOk (s : State) : Bool := Memory.wf s.mem

/-! ### When an operation has its effect -/

/-- R131, R335, R342, R346, R347: the slot raises no cause, what it reads has arrived, the tiles, accumulators and units it needs
are free, and the bits of its operands that must be zero are. -/
def Clear (i : Instr) (s : State) : Prop := slotFault i s = none ∧ ready i s = true ∧ valueBad i s = false

/-- R107, R114, R118, R169, R248, R379, R390: the pieces of an access are not held by a stack transfer, a FENCE, a watermark or a claimed
host entry, and neither uncorrectable data nor an erased key stops it. -/
def Reachable (ps : List Piece) (va : Nat) (op : AccessOp) (s : State) : Prop :=
  behindStack s = false ∧ fenced s ps = false ∧ blocked s ps = false ∧ memStop s op ps va = none

/-! ### What the write of a destination changes -/

/-- The bookkeeping of results in flight (R131, R136), which every write of a destination changes. -/
def Context.noResults (c : Context) : Context :=
  { c with results := [], nextRid := 0, group := { c.group with pending := [] } }

/-- R131: a result of the slot becomes readable `L` cycles after its issue. -/
def ArrivesIn (L : Nat) (dest : ResultDest) (s t : State) : Prop :=
  ∃ r ∈ t.core.act.results, r.rid = s.core.act.nextRid ∧ r.dest = dest ∧ r.due = some (s.core.cycle + L)

/-- R150, R152: from `s` to `t`, WriteS has given the scalar destination `d` the value `v` with latency `L`: a named register
holds it, or a result of the group awaits the next Trellis position, or (destination 32) it is discarded; nothing else
changes but the bookkeeping of results in flight, and no other register's readiness. -/
structure WroteScalar (d : Nat) (v : W64) (L : Nat) (s t : State) : Prop where
  named : d < 16 → t.core.act.sreg = s.core.act.sreg.set d v ∧ ArrivesIn L (.named (.s d)) s t
  position : d = 16 → t.core.act.group.pending = s.core.act.group.pending ++ [⟨.s, v, VReg.zero, some s.core.act.nextRid⟩] ∧
    ArrivesIn L (.trellis .s) s t
  discarded : 16 < d → t = s
  otherRegs : 16 ≤ d → t.core.act.sreg = s.core.act.sreg
  otherPending : d ≠ 16 → t.core.act.group.pending = s.core.act.group.pending
  otherReady : ∀ r, r ≠ .s d → t.core.act.resReady r = s.core.act.resReady r
  frame : modAct (fun c => { c.noResults with sreg := [] }) t = modAct (fun c => { c.noResults with sreg := [] }) s

/-- R135, R150, R152: from `s` to `t`, WriteP has given predicate `p` the value `b` with latency `L`; p0 stays 1. -/
structure WrotePred (p : Nat) (b : Bool) (L : Nat) (s t : State) : Prop where
  hardWired : p = 0 → t = s
  written : p ≠ 0 → t.core.act.preds = s.core.act.preds.set p b ∧ ArrivesIn L (.named (.p p)) s t
  otherReady : ∀ r, r ≠ .p p → t.core.act.resReady r = s.core.act.resReady r
  frame : modAct (fun c => { c with results := [], nextRid := 0, preds := [] }) t =
    modAct (fun c => { c with results := [], nextRid := 0, preds := [] }) s

/-- The masks of a cluster. -/
def Context.masks (v : Cluster) (c : Context) : List W64 :=
  match v with
  | .va => c.ma
  | .vb => c.mb

/-- R135, R215: from `s` to `t`, an own mask 1 to 7 of a cluster has been written with latency `L`. -/
structure WroteMask (v : Cluster) (x : Nat) (m : BitVec 64) (L : Nat) (s t : State) : Prop where
  hardWired : x = 0 → t = s
  written : x ≠ 0 → t.core.act.masks v = (s.core.act.masks v).set x m ∧ ArrivesIn L (.named (.m v x)) s t
  otherCluster : t.core.act.masks (otherCluster v) = s.core.act.masks (otherCluster v)
  otherReady : ∀ r, r ≠ .m v x → t.core.act.resReady r = s.core.act.resReady r
  frame : modAct (fun c => { c with results := [], nextRid := 0, ma := [], mb := [] }) t =
    modAct (fun c => { c with results := [], nextRid := 0, ma := [], mb := [] }) s

/-- The named vector registers of a cluster. -/
def Context.vfile (v : Cluster) (c : Context) : List VReg :=
  match v with
  | .va => c.va
  | .vb => c.vb

/-- R132, R195: whether a write under mask `m` sets the tag of a named register: it writes a lane, or no slot of the bundle before
it has written one. -/
def setsTag (m : BitVec 64) (r : Res) (s : State) : Bool := m != 0 || !s.core.slot.wrote.contains r

/-- R132, R136, R195: from `s` to `t`, the vector destination `x` named in cluster `v` has been given the lanes of `r` that mask `m`
enables, and its tag, readable at cycle `due` (`none`: when its access answers). -/
structure WroteVector (v : Cluster) (x : Nat) (m : BitVec 64) (r : VReg) (due : Option Nat) (s t : State) : Prop where
  named : x % 32 < 16 →
    t.core.act.vfile (specCluster v x) = (s.core.act.vfile (specCluster v x)).set (x % 16)
      ⟨mergeLanes m r.lanes (s.core.act.vreg (specCluster v x) (x % 16)).lanes,
        if setsTag m (.v (specCluster v x) (x % 16)) s then r.tag else (s.core.act.vreg (specCluster v x) (x % 16)).tag⟩
  position : 16 ≤ x % 32 →
    t.core.act.group.pending = s.core.act.group.pending ++
      [⟨.v (specCluster v x), 0, ⟨mergeLanes m r.lanes (List.replicate 64 0), r.tag⟩, some s.core.act.nextRid⟩] ∧
    t.core.act.vfile (specCluster v x) = s.core.act.vfile (specCluster v x)
  arrives : ∃ q ∈ t.core.act.results, q.rid = s.core.act.nextRid ∧ q.due = due ∧
    q.dest = (if x % 32 < 16 then .named (.v (specCluster v x) (x % 16)) else .trellis (.v (specCluster v x)))
  otherFile : t.core.act.vfile (otherCluster (specCluster v x)) = s.core.act.vfile (otherCluster (specCluster v x))
  otherPending : x % 32 < 16 → t.core.act.group.pending = s.core.act.group.pending
  otherReady : ∀ q, q ≠ .v (specCluster v x) (x % 16) → t.core.act.resReady q = s.core.act.resReady q
  frame : modSlot (fun k => { k with wrote := [] }) (modAct (fun c => { c.noResults with va := [], vb := [] }) t) =
    modSlot (fun k => { k with wrote := [] }) (modAct (fun c => { c.noResults with va := [], vb := [] }) s)

/-! ### Flags -/

/-- R138, R354: the state in which an arithmetic instruction of latency `L` writes its result: the flags it raised are set, and
while FEN is nonzero the next bundle waits until they are known. -/
def flagged (fl L : Nat) (s : State) : State := flagWait L (modAct (Context.setFlags fl) s)

/-- The flags raised over a list of elements. -/
def flagsOver (es : List Nat) (f : Nat → Nat) : Nat := es.foldl (fun n e => n ||| f e) 0

/-- R194: the elements of a register with `k` elements a lane that a mask enables, ascending. -/
def enabledElems (k : Nat) (m : BitVec 64) : List Nat := (List.range (64 * k)).filter (fun e => laneOn m (e / k))

/-! ### Bytes -/

/-- A state without the bytes that stores write: memory's cells, the keys they are under, and the record of uncorrectable units. -/
def State.noMemory (s : State) : State := { s with mem := [], unitKey := [], health := { s.health with bad := [] } }

/-- The byte that an access through key slot `k` reads at a local address. -/
def byteAt (s : State) (k a : Nat) : Byte := (readLocal s k a 1).headD 0

/-- Whether the bytes of a piece lie together in memory of this module, in one region that is no aperture. -/
def Piece.inMemory (s : State) (p : Piece) : Prop :=
  ∀ i < p.len, remapLocal s (localOf p.pa + i) = remapLocal s (localOf p.pa) + i ∧
    regionOf (remapLocal s (localOf p.pa) + i) = regionOf (remapLocal s (localOf p.pa)) ∧
    (regionOf (remapLocal s (localOf p.pa)) = .slice ∨ regionOf (remapLocal s (localOf p.pa)) = .dram ∨
      regionOf (remapLocal s (localOf p.pa)) = .lpddr)

/-- R26, R93: the piece of `n` bytes at an offset of the home window of the current core. -/
def homeSpan (s : State) (va n : Nat) : Piece := ⟨pkgId s * 2 ^ 46 + sliceBase (cidOf s.lcn) + va, n, 0⟩

/-- R5, R92, R303: from `s` to `t`, the bytes at piece `p` have become `bs`; every other byte reads as before: in encrypted
memory through the key of the piece, and through any key in other 64-byte units (R100: a unit is under one key). -/
def StoredAt (p : Piece) (bs : List Byte) (s t : State) : Prop :=
  (∀ i < bs.length, byteAt t p.key (localOf p.pa + i) = bs.getD i 0) ∧
  (∀ k a, (k = p.key ∨ regionOf (remapLocal s (localOf p.pa)) = .slice ∨ ∀ i < bs.length, remapLocal s a / 64 ≠ (remapLocal s (localOf p.pa) + i) / 64) →
    (∀ i < bs.length, remapLocal s a ≠ remapLocal s (localOf p.pa) + i) → byteAt t k a = byteAt s k a)

end Sys2Proof.Machine
end

