-- ==== Sys2Proof/WellFormed.lean ====
section
/-! DEFINITION. When an operation is one the encoding admits (R133 to R135, R151, R164, R198, R243, R346): a slot of unit 0 to 5
that raises none of the encoding causes 0x05 to 0x0A and 0x0E, whatever the state. -/

namespace Sys2Proof

open Machine

/-- The rows that occupy slots; happenings have no encoding. -/
def Instr.isSlot (i : Instr) : Bool := (encodeFields i).isSome

/-- R346: no field holds a value that its description reserves. -/
def Instr.fieldsOk (i : Instr) : Bool := !fieldBad i

/-- R133 to R135: every specifier is one its field may name. -/
def Instr.specsOk (x : SlotCtx) (i : Instr) : Bool := (operands x i).all (fun o => o.specFault.isNone)

/-- R128: XB is zero where it has no use, and its reserved bits are zero. -/
def Instr.xbOk (x : SlotCtx) (i : Instr) : Bool := !xbReserved x i && (xbUse i != .none || x.xb == 0)

/-- R164, R168: a control register or counter that is listed. -/
def Instr.numberOk (x : SlotCtx) (i : Instr) : Bool := (numberBad x i).isNone

/-- An operation with an extension that the encoding admits. -/
def Instr.wellFormed (x : SlotCtx) (i : Instr) : Bool :=
  i.isSlot && i.fieldsOk && i.specsOk x && i.xbOk x && i.numberOk x

end Sys2Proof
end

