-- ==== Sys2Proof/Certificates/Slice0/Obligations.lean ====
section
/-! DEFINITION. The statements for the provers. -/

open Sys2Proof Sys2Proof.Machine

/-- R139, R144, R146, R393: the two slots of the worked example of R144; the word of R146, assembled for core 11 and placed on CID 0x396; and a
9-bit field that linear core 550 does not fit. -/
def Obligations.DecodeExampleWords : Prop :=
  decodeSlot 0x00A183E8#32 = .ok ⟨false, .addi 3 1 0x1E8⟩ ∧ decodeSlot 0x90020310#32 = .ok ⟨true, .vadd .va 4 1 34 0⟩ ∧
  place State.reset ⟨[(0x00B, 0x396)], []⟩ [⟨0, 0, 0, 0, 2, 0x00B, 0⟩] ⟨toBytes 16 0x0023800B, []⟩ = some ⟨toBytes 16 0x00238396, []⟩ ∧
  ∀ d a : BitVec 6, ∀ w : W32, encodeSlot ⟨true, .addi d a 11⟩ = some w →
    place State.reset ⟨[(0x00B, cidOf 550)], []⟩ [⟨0, 0, 0, 1, 2, 11, 0⟩] ⟨toBytes 16 w.toNat, []⟩ = none

/-! ### Values that the rules give (the statements' own formulation) -/

namespace Sys2Proof.Claims

/-- R139: the slot word with G = 0 and its fields in the common places. -/
def word (unit opc d a b m : Nat) : W32 := BitVec.ofNat 32 (unit * 2 ^ 28 + opc * 2 ^ 21 + d * 2 ^ 15 + a * 2 ^ 9 + b * 2 ^ 3 + m)

/-- R370: one report more has come to the Lodge. -/
def oneReport (s t : State) : Prop := t.reports.length = s.reports.length + 1

/-- R128: the signed immediate of 9 bits, extended by XB in a bundle with a header. -/
def signed9 (m : BitVec 9) (s : State) : W64 :=
  if s.core.slot.hdr then (s.core.slot.xb ++ m).signExtend 64 else m.signExtend 64

/-- R128: the unsigned immediate of 9 bits. -/
def unsigned9 (m : BitVec 9) (s : State) : W64 :=
  if s.core.slot.hdr then (s.core.slot.xb ++ m).setWidth 64 else m.setWidth 64

/-- R153: destination, value and latency of LI, LIH and MOV. -/
def moveResult (s : State) : Instr → Option (BitVec 6 × W64 × Nat)
  | .li d i => some (d, if s.core.slot.hdr then (s.core.slot.xb ++ i).signExtend 64 else i.signExtend 64, 1)
  | .lih d i =>
    some (d, BitVec.ofNat 64 (if s.core.slot.hdr then (readS d.toNat s).toNat * 2 ^ 19 + (s.core.slot.xb ++ i).toNat
      else (readS d.toNat s).toNat * 2 ^ 15 + i.toNat), 1)
  | .mov d a => some (d, readS a.toNat s, 1)
  | _ => none

/-- R154: destination, value and latency of the integer, logic and bit-count instructions. -/
def integerResult (s : State) : Instr → Option (BitVec 6 × W64 × Nat)
  | .add d a b => some (d, BitVec.ofNat 64 ((readS a.toNat s).toNat + (readS b.toNat s).toNat), 1)
  | .addi d a m => some (d, BitVec.ofInt 64 ((readS a.toNat s).toInt + (signed9 m s).toInt), 1)
  | .sub d a b => some (d, BitVec.ofInt 64 ((readS a.toNat s).toInt - (readS b.toNat s).toInt), 1)
  | .mul d a b => some (d, BitVec.ofNat 64 ((readS a.toNat s).toNat * (readS b.toNat s).toNat), 3)
  | .mulhs d a b => some (d, ((readS a.toNat s).signExtend 128 * (readS b.toNat s).signExtend 128).extractLsb' 64 64, 4)
  | .mulhu d a b => some (d, ((readS a.toNat s).setWidth 128 * (readS b.toNat s).setWidth 128).extractLsb' 64 64, 4)
  | .and d a b => some (d, readS a.toNat s &&& readS b.toNat s, 1)
  | .andi d a m => some (d, readS a.toNat s &&& signed9 m s, 1)
  | .or d a b => some (d, readS a.toNat s ||| readS b.toNat s, 1)
  | .ori d a m => some (d, readS a.toNat s ||| unsigned9 m s, 1)
  | .xor d a b => some (d, readS a.toNat s ^^^ readS b.toNat s, 1)
  | .xori d a m => some (d, readS a.toNat s ^^^ unsigned9 m s, 1)
  | .andn d a b => some (d, readS a.toNat s &&& ~~~readS b.toNat s, 1)
  | .shl d a b => some (d, BitVec.ofNat 64 ((readS a.toNat s).toNat * 2 ^ ((readS b.toNat s).toNat % 64)), 1)
  | .shli d a m => some (d, BitVec.ofNat 64 ((readS a.toNat s).toNat * 2 ^ (m.toNat % 64)), 1)
  | .shr d a b => some (d, BitVec.ofNat 64 ((readS a.toNat s).toNat / 2 ^ ((readS b.toNat s).toNat % 64)), 1)
  | .shri d a m => some (d, BitVec.ofNat 64 ((readS a.toNat s).toNat / 2 ^ (m.toNat % 64)), 1)
  | .sra d a b => some (d, BitVec.ofInt 64 ((readS a.toNat s).toInt / 2 ^ ((readS b.toNat s).toNat % 64)), 1)
  | .srai d a m => some (d, BitVec.ofInt 64 ((readS a.toNat s).toInt / 2 ^ (m.toNat % 64)), 1)
  | .ror d a b => some (d, (readS a.toNat s).rotateRight ((readS b.toNat s).toNat % 64), 1)
  | .clz d a => some (d, BitVec.ofNat 64 ((List.range 64).takeWhile (fun i => !(readS a.toNat s).getMsbD i)).length, 1)
  | .ctz d a => some (d, BitVec.ofNat 64 ((List.range 64).takeWhile (fun i => !(readS a.toNat s).getLsbD i)).length, 1)
  | .popc d a => some (d, BitVec.ofNat 64 ((List.range 64).filter (fun i => (readS a.toNat s).getLsbD i)).length, 1)
  | .mins d a b => some (d, BitVec.ofInt 64 (min (readS a.toNat s).toInt (readS b.toNat s).toInt), 1)
  | .maxs d a b => some (d, BitVec.ofInt 64 (max (readS a.toNat s).toInt (readS b.toNat s).toInt), 1)
  | .minu d a b => some (d, BitVec.ofNat 64 (min (readS a.toNat s).toNat (readS b.toNat s).toNat), 1)
  | .maxu d a b => some (d, BitVec.ofNat 64 (max (readS a.toNat s).toNat (readS b.toNat s).toNat), 1)
  | _ => none

/-- R155: destination and value of the divisions, with their corners. -/
def divisionResult (s : State) : Instr → Option (BitVec 6 × W64)
  | .divs d a b =>
    some (d, if readS b.toNat s = 0 then -1 else BitVec.ofInt 64 ((readS a.toNat s).toInt.tdiv (readS b.toNat s).toInt))
  | .divu d a b => some (d, if readS b.toNat s = 0 then 0xFFFFFFFFFFFFFFFF else readS a.toNat s / readS b.toNat s)
  | .rems d a b =>
    some (d, if readS b.toNat s = 0 then readS a.toNat s
      else readS a.toNat s - readS b.toNat s * BitVec.ofInt 64 ((readS a.toNat s).toInt.tdiv (readS b.toNat s).toInt))
  | .remu d a b =>
    some (d, if readS b.toNat s = 0 then readS a.toNat s else readS a.toNat s - readS b.toNat s * (readS a.toNat s / readS b.toNat s))
  | _ => none

/-- R160: the field of BXT moved to the top of the word. -/
def topField (a b : W64) : W64 := (a >>> (b.toNat % 64)) <<< (63 - b.toNat / 256 % 64)

/-- R156, R159, R160: destination and value of SEL, AGEN, BXT and BIN. -/
def selectResult (s : State) : Instr → Option (BitVec 6 × W64)
  | .sel d a b p => some (d, if p = 0 ∨ s.core.act.preds.getD p.toNat false = true then readS a.toNat s else readS b.toNat s)
  | .agen d a b l => some (d, readS a.toNat s + (s.core.act.group.idx.getD l.toNat 0).setWidth 64 * readS b.toNat s)
  | .bxt d a b x =>
    some (d, if x = 0 then topField (readS a.toNat s) (readS b.toNat s) >>> (63 - (readS b.toNat s).toNat / 256 % 64)
      else (topField (readS a.toNat s) (readS b.toNat s)).sshiftRight (63 - (readS b.toNat s).toNat / 256 % 64))
  | .bin d a b =>
    let pos := (readS b.toNat s).toNat % 64
    let field : W64 := (BitVec.allOnes 64 >>> (63 - (readS b.toNat s).toNat / 256 % 64)) <<< pos
    some (d, (readS d.toNat s &&& ~~~field) ||| ((readS a.toNat s <<< pos) &&& field))
  | _ => none

/-- R157: whether a condition of CMP and CMPI holds. -/
def condition (c : BitVec 3) (a b : W64) : Prop :=
  match c with
  | 0 => a = b
  | 1 => a ≠ b
  | 2 => a.toInt < b.toInt
  | 3 => b.toInt ≤ a.toInt
  | 4 => a.toNat < b.toNat
  | 5 => b.toNat ≤ a.toNat
  | 6 => a &&& b ≠ 0
  | _ => a &&& b = 0

/-- R158: the operations of PLOG. -/
def predicateLogic (o : BitVec 3) (a b : Bool) : Bool :=
  match o with
  | 0 => a && b
  | 1 => a || b
  | 2 => a != b
  | 3 => a && !b
  | 4 => a || !b
  | 5 => !(a && b)
  | 6 => !(a || b)
  | _ => a == b

end Sys2Proof.Claims

/-! ### Scalar results -/

/-- R153 to R160: the scalar instructions that compute a value write it to their destination, each with its latency; compares and predicate
logic write a predicate; the words of the divisions, SEL and PLOG,
whose upper specifier bits are reserved. -/
def Obligations.ScalarResultsAndPredicatesAreWritten : Prop :=
  (
  ∀ i s d v L, (Claims.moveResult s i = some (d, v, L) ∨ Claims.integerResult s i = some (d, v, L) ∨
      (Claims.divisionResult s i = some (d, v) ∧ L = 34) ∨ (Claims.selectResult s i = some (d, v) ∧ L = 1)) →
    Clear i s → ∃ t, exec i s = .next t ∧ WroteScalar d.toNat v L s t) ∧
  (
  ∀ s, (∀ c p a b, Clear (.cmp c p a b) s → ∃ t r, exec (.cmp c p a b) s = .next t ∧
      (r = true ↔ Claims.condition c (readS a.toNat s) (readS b.toNat s)) ∧ WrotePred p.toNat r 1 s t) ∧
    (∀ c p a m, Clear (.cmpi c p a m) s → ∃ t r, exec (.cmpi c p a m) s = .next t ∧
      (r = true ↔ Claims.condition c (readS a.toNat s) (Claims.signed9 m s)) ∧ WrotePred p.toNat r 1 s t) ∧
    (∀ d a b o, Clear (.plog d a b o) s → ∃ t, exec (.plog d a b o) s = .next t ∧
      WrotePred d.toNat (Claims.predicateLogic o (readP a.toNat s) (readP b.toNat s)) 1 s t)) ∧
  (∀ d a b p, encode (.divs d a b) = some (Claims.word 0 0x0A d.toNat a.toNat b.toNat 0) ∧
    encode (.divu d a b) = some (Claims.word 0 0x0B d.toNat a.toNat b.toNat 0) ∧
    encode (.rems d a b) = some (Claims.word 0 0x0C d.toNat a.toNat b.toNat 0) ∧
    encode (.remu d a b) = some (Claims.word 0 0x0D d.toNat a.toNat b.toNat 0) ∧
    encode (.sel d a b p) = some (Claims.word 0 0x27 d.toNat a.toNat b.toNat p.toNat)) ∧
  (∀ d a b o, encode (.plog d a b o) = some (Claims.word 0 0x2A d.toNat a.toNat b.toNat o.toNat)) ∧
  (∀ (d a b : BitVec 6) (o : BitVec 3), 8 ≤ d.toNat ∨ 8 ≤ a.toNat ∨ 8 ≤ b.toNat →
    decodeSlot (Claims.word 0 0x2A d.toNat a.toNat b.toNat o.toNat) = .error .reserved)

/-! ### Floating-point results and flags -/

namespace Sys2Proof.Claims

/-- R161, R162: destination, result bits, flags and latency of the scalar floating-point instructions. -/
def floatResult (s : State) : Instr → Option (BitVec 6 × Nat × Nat × Nat)
  | .fadds d a b => some (d, (fp32.addNum (fpOf (readS a.toNat s)) (fpOf (readS b.toNat s))).1,
      (fp32.addNum (fpOf (readS a.toNat s)) (fpOf (readS b.toNat s))).2, 4)
  | .fmuls d a b => some (d, (fp32.mulBits (fpOf (readS a.toNat s)) (fpOf (readS b.toNat s))).1,
      (fp32.mulBits (fpOf (readS a.toNat s)) (fpOf (readS b.toNat s))).2, 4)
  | .ffmas d a b => some (d, (fp32.fmaBits (fpOf (readS a.toNat s)) (fpOf (readS b.toNat s)) (fpOf (readS d.toNat s))).1,
      (fp32.fmaBits (fpOf (readS a.toNat s)) (fpOf (readS b.toNat s)) (fpOf (readS d.toNat s))).2, 5)
  | .fcvts d a k => some (d, (fcvts k.toNat (readS a.toNat s)).1, (fcvts k.toNat (readS a.toNat s)).2, 3)
  | _ => none

/-- R157: whether FCMPS's condition holds, from whether an operand is NaN and how the two compare. -/
def floatCondition (c : BitVec 3) (unordered : Bool) (o : Ordering) : Prop :=
  match c with
  | 0 => unordered = false ∧ o = .eq
  | 1 => unordered = true ∨ o ≠ .eq
  | 2 => unordered = false ∧ o = .lt
  | 3 => unordered = false ∧ o ≠ .gt
  | 4 => unordered = false ∧ o = .gt
  | 5 => unordered = false ∧ o ≠ .lt
  | 6 => unordered = true
  | _ => unordered = false

/-- R157: the flags FCMPS raises: a NaN raises NV in the ordered conditions, a signalling NaN in all. -/
def floatConditionFlags (c : BitVec 3) (x y : Machine.Num) : Nat :=
  if (x.isSnan || y.isSnan) || ((x.isNan || y.isNan) && (c == 2 || c == 3 || c == 4 || c == 5)) then flNV else 0

end Sys2Proof.Claims

/-- R157, R161, R162, R196: with no raised flag enabled, the flags are set and the result is written zero-extended, or the predicate of
FCMPS. -/
def Obligations.ScalarFloatResultsAndFlags : Prop :=
  (∀ i s d r fl L, Claims.floatResult s i = some (d, r, fl, L) → Clear i s → (∀ f < 5, bit s.core.act.fen f = true → bit fl f = false) →
    ∃ t, exec i s = .next t ∧ WroteScalar d.toNat (BitVec.ofNat 64 r) L (flagged fl L s) t) ∧
  (∀ s c p a b, Clear (.fcmps c p a b) s →
    let x := fpOf (readS a.toNat s)
    let y := fpOf (readS b.toNat s)
    let fl := Claims.floatConditionFlags c x y
    (∀ f < 5, bit s.core.act.fen f = true → bit fl f = false) →
    ∃ t r, exec (.fcmps c p a b) s = .next t ∧ (r = true ↔ Claims.floatCondition c (x.isNan || y.isNan) (cmpNum x y)) ∧
      WrotePred p.toNat r 2 (flagged fl 2 s) t)

/-! ### Control registers, counters and the spill stack -/

namespace Sys2Proof.Claims

/-- R164: what each listed control register holds. -/
def controlValue (n : Nat) (s : State) : W64 :=
  if n = 0x00 then (s.core.act.stw &&& ~~~0x100#64) ||| (if s.core.act.group.isOpen then 0x100#64 else 0)
  else if n = 0x01 then s.core.act.epc
  else if n = 0x02 then s.core.act.estw
  else if n = 0x03 then s.core.act.cause
  else if n = 0x04 then s.core.act.tval
  else if n = 0x05 then s.core.act.tvec
  else if n = 0x06 then s.core.act.macpc
  else if n = 0x07 then s.core.act.micpc
  else if n = 0x08 then s.core.act.ssp
  else if n = 0x09 then s.core.act.sslim
  else if n = 0x0A then s.core.act.sstop
  else if n = 0x0B then BitVec.ofNat 64 (s.core.act.remaining s.core.slot.tick)
  else if n = 0x0C then s.core.act.qpct
  else if n = 0x0D then s.core.act.qbase
  else if n < 0x18 then (s.core.act.marks.getD (n - 0x10) Watermark.reset).word
  else if n < 0x1E then (match s.core.act.loops[n - 0x18]? with | some l => l.idx ++ l.rem | none => 0)
  else if n < 0x23 then merrWord s.core (n - 0x20)
  else s.core.mgrp.getD (n - 0x24) 0

/-- R89: the groups and detections counted at a level in the present cycle. -/
def countedNow (i : Nat) (s : State) : Nat × Nat := if s.core.countCycle = s.core.cycle then s.core.countThen.getD i (0, 0) else (0, 0)

/-- R138, R340, R166, R84, R89: what CSRW of `v` to control register `n` makes of the context and the core; every register and bit
that is not RW keeps its value. A flag that completes in the cycle of the write stays set (R138), and what is counted in that cycle counts on (R89). -/
def controlWritten (n : Nat) (v : W64) (s : State) : State :=
  if n = 0x00 then modAct (fun c => { c with stw := (c.stw &&& ~~~0x1F1F00000000#64) ||| ((v ||| c.flagsOf s.core.cycle) &&& 0x1F1F00000000#64) }) s
  else if n = 0x01 then modAct (fun c => { c with epc := (c.epc &&& ~~~0x7FFF0#64) ||| (v &&& 0x7FFF0#64) }) s
  else if n = 0x02 then modAct (fun c => { c with estw := (c.estw &&& ~~~0x1F1F0000001F#64) ||| (v &&& 0x1F1F0000001F#64) }) s
  else if n = 0x03 then modAct (fun c => { c with cause := (c.cause &&& ~~~0x7FFF#64) ||| (v &&& 0x7FFF#64) }) s
  else if n = 0x04 then modAct (fun c => { c with tval := v }) s
  else if n = 0x05 then modAct (fun c => { c with tvec := (c.tvec &&& ~~~0x7FFF0#64) ||| (v &&& 0x7FFF0#64) }) s
  else if n = 0x08 then modAct (fun c => { c with ssp := (c.ssp &&& ~~~0x7FFFF0#64) ||| (v &&& 0x7FFFF0#64) }) s
  else if n = 0x09 then modAct (fun c => { c with sslim := (c.sslim &&& ~~~0x7FFFF0#64) ||| (v &&& 0x7FFFF0#64) }) s
  else if n = 0x0A then modAct (fun c => { c with sstop := (c.sstop &&& ~~~0x7FFFF0#64) ||| (v &&& 0x7FFFF0#64) }) s
  else if n = 0x0C then modAct (fun c => { c with qpct := (c.qpct &&& ~~~0x7FF#64) ||| (v &&& 0x7FF#64) }) s
  else if n = 0x0D then modAct (fun c => { c with qbase := (c.qbase &&& ~~~0xFF#64) ||| (v &&& 0xFF#64) }) s
  else if 0x20 ≤ n ∧ n < 0x23 then
    let k := (countedNow (n - 0x20) s).2
    let m := ((v.setWidth 48).toNat + k, (s.core.merr.getD (n - 0x20) (0, false)).2 && !v.getLsbD 63)
    modCore (fun d => { d with
      merr := d.merr.set (n - 0x20) (BitVec.ofNat 48 (min m.1 0xFFFFFFFFFFFF), m.2 || (decide (0 < k) && decide (0xFFFFFFFFFFFF ≤ m.1))) }) s
  else if 0x24 ≤ n ∧ n < 0x27 then modCore (fun d => { d with mgrp := d.mgrp.set (n - 0x24) (v + BitVec.ofNat 64 (countedNow (n - 0x24) s).1) }) s
  else s

/-- R168: the counters. -/
def counterValue (n : Nat) (s : State) : W64 :=
  if n = 0 then s.core.act.bundles
  else if n = 1 then s.core.act.estall
  else if n = 2 then s.core.act.mskip
  else if n = 3 then s.core.act.dstall
  else if n = 4 then BitVec.ofNat 64 s.core.cycle
  else s.core.cestall

/-- R73: the lanes of a register as they are read: of a register with a block tag lanes 40 to 63 are zero. -/
def shownLanes (v : VReg) : List W32 := if v.tag = 6 ∨ v.tag = 7 ∨ v.tag = 8 then v.lanes.take 40 ++ List.replicate 24 0 else v.lanes

/-- R169: the record of register `r` of file `f`. -/
def spillRecord (f : BitVec 3) (r : Nat) (s : State) : List Byte :=
  match f with
  | 0 => toBytes 16 (readS r s).toNat
  | 1 => (shownLanes (s.core.act.vreg .va r)).flatMap (fun l => toBytes 4 l.toNat) ++ toBytes 16 ((s.core.act.vreg .va r).tag % 256)
  | 2 => (shownLanes (s.core.act.vreg .vb r)).flatMap (fun l => toBytes 4 l.toNat) ++ toBytes 16 ((s.core.act.vreg .vb r).tag % 256)
  | 3 => toBytes 16 (s.core.act.mask .va r).toNat
  | _ => toBytes 16 (s.core.act.mask .vb r).toNat

/-- R169: bytes of a record. -/
def recordBytes (f : BitVec 3) : Nat := if f = 1 ∨ f = 2 then 272 else 16

end Sys2Proof.Claims

/-- R138, R163, R164, R168, R188: CSRR, CSRW, CRD and RDTICK; a CSRR of STW waits for matrix instructions and FADD32s under way.
A register that something other than a CSRW of its group changes is read with its live value: the model's choice (assumption 57), as is what remains
beside a CSRW (assumption 22). -/
def Obligations.ControlRegistersAndCountersAreReadAndWritten : Prop :=
  (∀ s d n, Clear (.csrr d n) s →
    let m := immZ 9 n.toNat s.core.slot
    (m ≠ 0 ∨ s.core.act.completions = [] → ∃ t, exec (.csrr d n) s = .next t ∧ WroteScalar d.toNat (Claims.controlValue m s) 2 s t) ∧
    (m = 0 → s.core.act.completions ≠ [] → exec (.csrr d n) s = .next (stall s))) ∧
  (∀ s a n, Clear (.csrw a n) s →
    exec (.csrw a n) s = .next (Claims.controlWritten (immZ 9 n.toNat s.core.slot) (readS a.toNat s) s)) ∧
  (∀ s d, (∀ n, Clear (.crd d n) s → ∃ t, exec (.crd d n) s = .next t ∧
      WroteScalar d.toNat (Claims.counterValue (immZ 9 n.toNat s.core.slot) s) 2 s t) ∧
    (Clear (.rdtick d) s → ∃ t, exec (.rdtick d) s = .next t ∧ WroteScalar d.toNat (BitVec.ofNat 64 s.core.slot.tick) 1 s t))

/-- R73, R169, R350: a PUSHM that fits stores the records of A to B, ascending, below the old SSP, and lowers SSP to the first; a POPM that fits gives
registers A to B the values of the records from SSP up and raises SSP past them, a write of ma0 or mb0 discarded; a range that is invalid, a stack
without room and a stack without the records trap before any byte or register is written. That an offset is not translated and a record that
reaches past the home window traps with 0x66 is the model's choice (assumption 27). -/
def Obligations.SpillStackMovesRecords : Prop :=
  (∀ s (a b : BitVec 6) (f : BitVec 3) p, Clear (.pushm a b f) s → rangeBad f.toNat a.toNat b.toNat = false →
    let len := (b.toNat - a.toNat + 1) * Claims.recordBytes f
    let lo := s.core.act.ssp.toNat - len
    let bs := (List.range (b.toNat - a.toNat + 1)).flatMap (fun i => Claims.spillRecord f (a.toNat + i) s)
    let x := mkAccess s s.core.slot.xb.toNat false false lo [p] (.store bs) .none 0
    s.core.act.sslim.toNat + len ≤ s.core.act.ssp.toNat → lo + len ≤ 0x400000 → xlate lo len .write 16 s = .ok p →
    (∀ v r, (s.core.act.vreg v r).lanes.length = 64) →
    s.core.act.pushBusy ≤ s.core.cycle → blocked s [p] = false → mayPerform s s.core.act.holds x = true →
    partialBad s (localOf p.pa) p.len = false → s.memOk = true → p.inMemory s →
    ∃ u, StoredAt p bs s u ∧ u.noMemory = s.noMemory ∧
      exec (.pushm a b f) s = .next (modAct (fun c => { c with ssp := BitVec.ofNat 64 lo, pushBusy := s.core.cycle + 3 + ceilDiv len 512 })
        (touch lo u))) ∧
  (∀ s (a b : BitVec 6) (f : BitVec 3) p, Clear (.popm a b f) s → rangeBad f.toNat a.toNat b.toNat = false →
    let n := b.toNat - a.toNat + 1
    let z := Claims.recordBytes f
    let lo := s.core.act.ssp.toNat
    let x := mkAccess s s.core.slot.xb.toNat false false lo [p] .load .none 0
    lo + n * z ≤ s.core.act.sstop.toNat → lo + n * z ≤ 0x400000 → xlate lo (n * z) .read 16 s = .ok p →
    s.core.act.pushBusy ≤ s.core.cycle → blocked s [p] = false → mayPerform s s.core.act.holds x = true →
    spanBad s (localOf p.pa) p.len = false →
    let u := modAct (fun c => { c with pushBusy := s.core.cycle + transferCycles (n * z) }) (touch lo s)
    exec (.popm a b f) s = .next (modAct (fun c => { c with ssp := (c.ssp &&& ~~~0x7FFFF0#64) ||| (BitVec.ofNat 64 (lo + n * z) &&& 0x7FFFF0#64) })
      ((List.range n).foldl (fun t i =>
        popRecord f.toNat (a.toNat + i) (3 + ceilDiv (n * z) 512) ((readLocal s p.key (localOf p.pa) p.len).drop (i * z) |>.take z) t) u))) ∧
  (∀ s (a b : BitVec 6) (f : BitVec 3),
    let len := (b.toNat - a.toNat + 1) * Claims.recordBytes f
    (Clear (.pushm a b f) s → rangeBad f.toNat a.toNat b.toNat = true →
      exec (.pushm a b f) s = .next (trap 0x27 (BitVec.ofNat 64 (a.toNat + b.toNat * 256)) s)) ∧
    (Clear (.pushm a b f) s → rangeBad f.toNat a.toNat b.toNat = false → s.core.act.ssp.toNat < s.core.act.sslim.toNat + len →
      exec (.pushm a b f) s = .next (trap 0x25 (BitVec.ofNat 64 len) s)) ∧
    (Clear (.popm a b f) s → rangeBad f.toNat a.toNat b.toNat = true →
      exec (.popm a b f) s = .next (trap 0x27 (BitVec.ofNat 64 (a.toNat + b.toNat * 256)) s)) ∧
    (Clear (.popm a b f) s → rangeBad f.toNat a.toNat b.toNat = false → s.core.act.sstop.toNat < s.core.act.ssp.toNat + len →
      exec (.popm a b f) s = .next (trap 0x26 (BitVec.ofNat 64 len) s))) ∧
  (∀ s (a b : BitVec 6) (f : BitVec 3), rangeBad f.toNat a.toNat b.toNat = false →
    let len := (b.toNat - a.toNat + 1) * Claims.recordBytes f
    let lo := s.core.act.ssp.toNat - len
    (Clear (.pushm a b f) s → s.core.act.sslim.toNat + len ≤ s.core.act.ssp.toNat → 0x400000 < lo + len →
      exec (.pushm a b f) s = .next (trapAt lo 0x66 (BitVec.ofNat 64 lo) s)) ∧
    (Clear (.popm a b f) s → s.core.act.ssp.toNat + len ≤ s.core.act.sstop.toNat → 0x400000 < s.core.act.ssp.toNat + len →
      exec (.popm a b f) s = .next (trapAt s.core.act.ssp.toNat 0x66 s.core.act.ssp s)))


/-! ### Transfers, loops, repeats and micro-sequences -/

namespace Sys2Proof.Claims

/-- R128: the signed immediate of `w` bits as an integer. -/
def offset (w : Nat) (m : BitVec w) (s : State) : Int := if s.core.slot.hdr then (s.core.slot.xb ++ m).toInt else m.toInt

/-- R170, R171: the address of the bundle being executed, in its space. -/
def here (s : State) : Nat := if s.core.act.micro then s.core.act.micpc.toNat % 0x8000 else s.core.act.pc.toNat

/-- R170: an address formed in the present space: 32 KiB of micro-sequence, 256 KiB of macro code, in whole bundles. -/
def inSpace (v : Int) (s : State) : Nat := (if s.core.act.micro then v % 0x8000 else v % 0x40000).toNat / 16 * 16

/-- The bundle being executed ends with a transfer to an address of its space. -/
def aimAt (a : Nat) (s : State) : State := modAct (fun c => { c with xfer := some ⟨a, c.micro, none⟩ }) s

/-- R172, R350: what a LOOP of `len` bundles and `n` iterations does. -/
def loopOpened (len : Nat) (n : BitVec 32) (s : State) : State :=
  if n = 0 then aimAt (inSpace (here s + 16 * len + 16) s) s
  else if s.core.act.loops.length ≥ 6 then trap 0x11 (BitVec.ofNat 64 (here s)) s
  else if ∃ l ∈ s.core.act.loops.head?, l.micro = s.core.act.micro ∧ l.start ≤ here s ∧ here s ≤ l.last ∧ l.last < here s + 16 * len then
    trap 0x12 (BitVec.ofNat 64 (here s)) s
  else modAct (fun c => { c with loops := ⟨inSpace (here s + 16) s, inSpace (here s + 16 * len) s, n, 0, c.micro⟩ :: c.loops }) s

/-- R173, R177: the address and the space of the bundle executed after the present one, as the nest and a taken transfer stand. -/
def nextAt (s : State) : Nat × Bool := ((nextBundle s.core.act).1.here, (nextBundle s.core.act).1.micro)

/-- R177, R350: what REPV of a count and a stride does: its target is the bundle executed next. -/
def repeatOpened (stride count : Nat) (s : State) : State :=
  if ∃ i ∈ bundleOps (bundleIn s.core (nextAt s).2 (nextAt s).1), notRepeatable i = true then trap 0x24 (BitVec.ofNat 64 (nextAt s).1) s
  else modAct (fun c => { c with
    stw := (c.stw &&& ~~~0xFFFF0000#64) ||| BitVec.ofNat 64 (count * 0x10000), rep := some ⟨(nextAt s).1, stride, (nextAt s).2⟩ }) s

/-- R178, R350: what LAYER of a line does. -/
def layerEntered (line : Nat) (s : State) : State :=
  if s.core.act.micro = true then trap 0x0F (BitVec.ofNat 64 line) s
  else if line ≥ 2048 then trap 0x14 (BitVec.ofNat 64 line) s
  else modAct (fun c => { c with macpc := c.pc.setWidth 64, xfer := some ⟨line * 16, true, none⟩ }) s

end Sys2Proof.Claims

/-- R170, R171: BR, CALL, CALLR, RET and JR; the link is the bundle after, and the target of CALLR is read before it is written.
R172, R174, R177, R178, R350: LOOP with a register or an immediate count, LOOPX, REPV, LAYER and LRET. -/
def Obligations.TransfersLoopsAndMicroSequencesStart : Prop :=
  (
  ∀ s (m : BitVec 15) (n : BitVec 9) (d a : BitVec 6),
    (Clear (.br m) s → exec (.br m) s = .next (Claims.aimAt (Claims.inSpace (Claims.here s + 16 * Claims.offset 15 m s) s) s)) ∧
    (Clear (.ret a) s → exec (.ret a) s = .next (Claims.aimAt (Claims.inSpace (readS a.toNat s).toNat s) s)) ∧
    (Clear (.jr a n) s → exec (.jr a n) s =
      .next (Claims.aimAt (Claims.inSpace ((readS a.toNat s).toNat + 16 * Claims.offset 9 n s) s) s)) ∧
    (Clear (.call d m) s → ∃ t, WroteScalar d.toNat (BitVec.ofNat 64 (Claims.inSpace (Claims.here s + 16) s)) 1 s t ∧
      exec (.call d m) s = .next (Claims.aimAt (Claims.inSpace (Claims.here s + 16 * Claims.offset 15 m s) s) t)) ∧
    (Clear (.callr d a) s → ∃ t, WroteScalar d.toNat (BitVec.ofNat 64 (Claims.inSpace (Claims.here s + 16) s)) 1 s t ∧
      exec (.callr d a) s = .next (Claims.aimAt (Claims.inSpace (readS a.toNat s).toNat s) t))) ∧
  (
  (∀ s (l : BitVec 5) (a : BitVec 6) (n : BitVec 12) (k : BitVec 3),
    (Clear (.loop l a) s → exec (.loop l a) s = .next (Claims.loopOpened (l.toNat + 1) ((readS a.toNat s).setWidth 32) s)) ∧
    (Clear (.loopImm l n) s → exec (.loopImm l n) s = .next (Claims.loopOpened (l.toNat + 1)
      (if s.core.slot.hdr then (s.core.slot.xb ++ n).setWidth 32 else n.setWidth 32) s)) ∧
    (Clear (.loopx k) s → s.core.act.loops.length ≤ k.toNat → exec (.loopx k) s = .next (trap 0x13 (BitVec.ofNat 64 (k.toNat + 1)) s)) ∧
    (∀ v, Clear (.loopx k) s → s.core.act.loops[k.toNat]? = some v → exec (.loopx k) s = .next (modAct (fun c => { c with
      loops := c.loops.drop (k.toNat + 1)
      xfer := some ⟨(v.last + 16) % (if v.micro then 0x8000 else 0x40000), v.micro, none⟩ }) s))) ∧
  (∀ s (z : BitVec 3) (a : BitVec 6) (n : BitVec 12) (m : BitVec 15),
    (Clear (.repv z a) s → exec (.repv z a) s = .next (Claims.repeatOpened z.toNat ((readS a.toNat s).toNat % 65536) s)) ∧
    (Clear (.repvImm z n) s → exec (.repvImm z n) s =
      .next (Claims.repeatOpened z.toNat (if s.core.slot.hdr then (s.core.slot.xb ++ n).toNat else n.toNat) s)) ∧
    (Clear (.layer m) s → exec (.layer m) s =
      .next (Claims.layerEntered (if s.core.slot.hdr then (s.core.slot.xb ++ m).toNat else m.toNat) s)) ∧
    (Clear .lret s → exec .lret s = .next (if s.core.act.micro = true then
      modAct (fun c => { c with xfer := some ⟨(c.macpc.toNat + 16) % 0x40000, false, none⟩ }) s else trap 0x10 0 s))))

/-- R170, R173: what the end of a bundle does to the nest and where the context goes on, in how many cycles: a taken transfer skips
the loop check, which pops the levels in their last iteration and goes back to the start of the first that is not. -/
def Obligations.TheEndOfABundleGoesOn : Prop :=
  ∀ (c : Context),
    (∀ a m, c.xfer = some ⟨a, m, none⟩ → a < (if m = true then 0x8000 else 0x40000) →
      (nextBundle c).1.here = a ∧ (nextBundle c).1.micro = m ∧ (nextBundle c).1.loops = c.loops ∧ (nextBundle c).1.xfer = none ∧
        (nextBundle c).2 = 3) ∧
    (c.xfer = none → ∀ ls r, c.loops = ls ++ r → (∀ l ∈ ls, l.last = c.here ∧ l.micro = c.micro ∧ l.rem.toNat ≤ 1) →
      (∀ l q, r = l :: q → l.last = c.here → l.micro = c.micro → 1 < l.rem.toNat → l.start < (if c.micro = true then 0x8000 else 0x40000) →
        (nextBundle c).1.here = l.start ∧ (nextBundle c).1.micro = c.micro ∧
          (nextBundle c).1.loops = { l with rem := l.rem - 1, idx := l.idx + 1 } :: q ∧ (nextBundle c).2 = 1) ∧
      ((∀ l ∈ r.head?, l.last ≠ c.here ∨ l.micro ≠ c.micro) →
        (nextBundle c).1.here = (if c.micro = true then (c.here + 16) % 0x8000 / 16 * 16 else (c.here + 16) % 0x40000 / 16 * 16) ∧
          (nextBundle c).1.micro = c.micro ∧ (nextBundle c).1.loops = r ∧ (nextBundle c).2 = 1))

/-! ### Traps and the return from them -/

/-- R335, R336, R337, R340: a cause whose handler is reachable, taken in user mode: what is saved, where the context goes on, what is
set aside and cleared; every other register, the tiles and accumulators stay. -/
def Obligations.ATrapEntersTheHandler : Prop :=
  ∀ (code : BitVec 8) (v : W64) (s : State), s.core.slot.k < 4 → s.core.act.priv = false → toHandler code.toNat = true →
    bit s.core.act.tvec.toNat 18 = true → s.core.swapReq ≠ some .exited →
    let c := s.core.act
    let t := trap code v s
    t.core.act.epc = BitVec.ofNat 64 (Claims.here s + (if c.micro = true then 0x40000 else 0)) ∧
    t.core.act.estw = ((c.readStw &&& ~~~3#64) ||| BitVec.ofNat 64 s.core.slot.k) ∧
    t.core.act.cause = BitVec.ofNat 64 (code.toNat + s.core.slot.k * 256 + fld (curWord s).toNat 28 3 * 1024 + (if c.micro = true then 0x4000 else 0)) ∧
    t.core.act.tval = v ∧
    t.core.act.pc = c.tvec.setWidth 18 ∧ t.core.act.micro = false ∧
    t.core.act.stw = ((c.stw &&& ~~~0x1F00FFFF0107#64) ||| 4#64) ∧
    t.core.act.sq = Trellis.empty 0 ∧ t.core.act.qa = Trellis.empty VReg.zero ∧ t.core.act.qb = Trellis.empty VReg.zero ∧
    t.core.act.group = Group.none ∧ t.core.act.loops = [] ∧ t.core.act.rep = none ∧ t.core.act.drain = true ∧
    t.core.cycle = s.core.cycle + 12 ∧
    modCore (fun d => { d with slot := SlotCtx.idle, cycle := 0, time := 0, act := { d.act with
      epc := 0, estw := 0, cause := 0, tval := 0, pc := 0, micpc := 0, stw := 0, sq := Trellis.empty 0, qa := Trellis.empty VReg.zero
      qb := Trellis.empty VReg.zero, group := Group.none, loops := [], rep := none, xfer := none, wait := .none, soft := none
      drain := false, aside := [], firstCause := 0, split := [] } }) t =
    modCore (fun d => { d with slot := SlotCtx.idle, cycle := 0, time := 0, act := { d.act with
      epc := 0, estw := 0, cause := 0, tval := 0, pc := 0, micpc := 0, stw := 0, sq := Trellis.empty 0, qa := Trellis.empty VReg.zero
      qb := Trellis.empty VReg.zero, group := Group.none, loops := [], rep := none, xfer := none, wait := .none, soft := none
      drain := false, aside := [], firstCause := 0, split := [] } }) s

/-- R335, R338, R343, R358: a cause met in supervisor mode ends the context as a double fault that names the first cause, which the last
trap entry kept; a cause without a handler ends it with its own code. -/
def Obligations.CausesThatEndTheContext : Prop :=
  ∀ (code : BitVec 8) (v : W64) (s : State), s.core.swapReq ≠ some .exited →
    (s.core.act.priv = true → ∃ t, trap code v s = t ∧ t.core.slot.ended = .stopped ∧
      (∃ e, t.core.act.ending = some e ∧ e.code = 0x17 ∧ e.tval = BitVec.ofNat 64 s.core.act.firstCause.toNat ∧ e.k = s.core.slot.k) ∧
      t.mem = s.mem) ∧
    (s.core.act.priv = false → (toHandler code.toNat = false ∨ s.core.act.tvec.getLsbD 18 = false) →
      ∃ t, trap code v s = t ∧ t.core.slot.ended = .stopped ∧
        (∃ e, t.core.act.ending = some e ∧ e.code = code ∧ e.tval = v ∧ e.k = s.core.slot.k) ∧
        (s.time, .contextEnd s.lcn code v) ∈ t.agenda ∧ t.mem = s.mem)

/-- R337, R339: returning from a trap to the stopped slot restores what its entry set aside: Trellises, group, loop nest, repeat and its
count, the slot and what it had begun; returning to another slot what it had begun is dropped; with nothing set aside the slot and REPC come
from ESTW and the Trellises and the nest stay.
R189, R190, R339: TRAP and SVC ask for their trap after the bundle, which its end takes with the next bundle as the place to return
to; ERET restores the fields of STW from ESTW and goes to EPC. -/
def Obligations.SoftwareTrapsAndReturn : Prop :=
  (
  ∀ (code : BitVec 8) (v : W64) (k kc unit : Nat) (defer : Bool) (c : Context), k < 4 →
    let e := c.enter code v k kc unit defer
    let r := e.reinstate e.returning
    r.sq = c.sq ∧ r.qa = c.qa ∧ r.qb = c.qb ∧ r.group = c.group ∧ r.loops = c.loops ∧ r.rep = c.rep ∧ r.xfer = c.xfer ∧ r.wait = c.wait ∧
      r.soft = c.soft ∧ r.split = c.split ∧ r.slotres = k ∧ r.repc = c.repc ∧ r.aside = c.aside) ∧
  (∀ (code : BitVec 8) (v : W64) (k kc unit : Nat) (defer : Bool) (c : Context) (t : Return), k < 4 → t.slot < 4 →
    let e := c.enter code v k kc unit defer
    let r := e.reinstate t
    t.stopped ≠ e.returning.stopped →
      r.sq = c.sq ∧ r.qa = c.qa ∧ r.qb = c.qb ∧ r.group = c.group ∧ r.loops = c.loops ∧ r.rep = c.rep ∧ r.xfer = none ∧ r.wait = .none ∧
      r.soft = none ∧ r.split = [] ∧ r.slotres = t.slot ∧ r.repc = c.repc ∧ r.aside = c.aside) ∧
  (∀ (c : Context) (t : Return), c.aside = [] → t.slot < 4 → t.repc < 65536 → let r := c.reinstate t
    r.slotres = t.slot ∧ r.repc = t.repc ∧ r.xfer = none ∧ r.sq = c.sq ∧ r.qa = c.qa ∧ r.qb = c.qb ∧ r.group = c.group ∧ r.loops = c.loops) ∧
  (
  ∀ s (n : BitVec 9), let m := if s.core.slot.hdr then (s.core.slot.xb ++ n).setWidth 64 else n.setWidth 64
    (Clear (.trap n) s → exec (.trap n) s = .next (modAct (fun c => { c with soft := some (0x15, m, s.core.slot.k) }) s)) ∧
    (Clear (.svc n) s → exec (.svc n) s = .next (modAct (fun c => { c with soft := some (0x16, m, s.core.slot.k) }) s)) ∧
    (∀ b code v k, s.core.act.soft = some (code, v, k) → s.core.swapReq = none → s.core.act.rep = none → s.core.act.xfer = none →
      s.core.act.loops = [] → ∃ u, endBundle b s = takeTrap code v 0 k 0 false u ∧ u.core.act.soft = none ∧
        u.core.act.here = (if s.core.act.micro = true then (Claims.here s + 16) % 0x8000 / 16 * 16 else (Claims.here s + 16) % 0x40000 / 16 * 16) ∧
        u.core.act.micro = s.core.act.micro) ∧
    (Clear .eret s → exec .eret s = .next (settleRails s.lcn s.core.time (modAct (fun c => { c with
        stw := (c.stw &&& ~~~0x1F1F0000001C#64) ||| (c.estw &&& 0x1F1F0000001C#64)
        xfer := some ⟨c.epc.toNat % 0x40000, c.epc.getLsbD 18,
          some ⟨c.estw.toNat % 4, c.estw.toNat / 65536 % 65536, c.epc.toNat * 4 + c.estw.toNat % 4⟩⟩ }) s))))

/-! ### Task, host, power, fidelity and system instructions -/

namespace Sys2Proof.Claims

/-- R113, R118, R193: the host entries of a die after the task and access number `m` have claimed, in tick `now`, the first `k` that no one
had and that arrived in an earlier tick. -/
def claimed (m : Nat × Nat) (now k : Nat) (es : List HostEntry) : List HostEntry :=
  (List.range es.length).filterMap (fun j => es[j]?.map (fun e =>
    if e.claimed = none ∧ e.tick < now ∧ ((es.take j).filter (fun x => x.claimed.isNone && decide (x.tick < now))).length < k then
      { e with claimed := some m } else e))

/-- R185, R293, R295: core `s.lcn` starts a transition to OPk: settling cycles of the target's clock. -/
def transition (k : Nat) (s : State) : State :=
  let ends := s.time + (if k < s.core.op then 64 else 200 * (k - s.core.op) + 200) * Config.cycleUnits k
  atTime ends (.opSettled s.lcn) (modCore (fun d => { d with opMove := some ⟨k, ends⟩ }) s)

/-- R31, R185, R294, R295: the point that a request for OPk asks for. -/
def wanted (k : Nat) (s : State) : Nat :=
  min (if k = 7 ∧ s.core.act.leased = false then 6 else k) (regRaw s (0x2400000 + s.lcn * 0x40) / 0x400 % 8)

/-- R90, R91, R186: the rails move when the level in force, FID or the limit MFLIM, is not the one they stand at. -/
def railsMoved (f : Nat) (s : State) : State :=
  let lv := min f (regRaw s (0x2400008 + s.lcn * 0x40) % 4)
  if lv = s.core.rail then s
  else
    let ends := s.core.time + (if lv < s.core.rail then 256 else 32) * s.core.unit
    atTime ends (.railSettled s.lcn) (modCore (fun d => { d with rail := lv, railEnds := ends }) s)

/-- R58, R101: from `s` to `t`, nothing has changed but that a context which has left the current core and is being spilled, if its ASID is
one of those named, sees its range table and page tables as they are now. -/
structure departedSees (p : Nat → Bool) (s t : State) : Prop where
  renewed : ∀ r w, s.core.shadow = .spilling r w → p s.core.shd.asid = true → rangesFail s (asidEntry s s.core.shd.asid) = none →
    t.core.shd = { s.core.shd with ranges := (readRanges s s.core.shd.asid).1, tables := ⟨s.mem, s.unitKey, tickNow s⟩ }
  same : (∀ r w, s.core.shadow ≠ .spilling r w) ∨ p s.core.shd.asid = false → t = s
  frame : modCore (fun d => { d with shd := Context.reset }) t = modCore (fun d => { d with shd := Context.reset }) s

/-- R181, R61: the value TJOIN writes. -/
def joinResult (w : List Byte) : W64 := BitVec.ofNat 64 (leAt w 8 4 + leAt w 12 1 * 2 ^ 32 + leAt w 14 2 * 2 ^ 40)

/-- An answered access `a` that the slot waits for has been taken: it is gone and the slot waits no more. -/
def taken (a : Access) (s : State) : State :=
  modAct (fun c => { c with wait := .none }) { s with accesses := s.accesses.filter (fun x => x.id != a.id) }

/-- R93: `len` bytes at an address lie in the home window. -/
def homeSized (va : W64) (len : Nat) : Bool := decide (va.toNat % 2 ^ 57 + len ≤ 0x400000)

/-- R182: the address of a WAIT, and the test of the 16 bytes there that lets it commit. -/
def waitTest (s : State) : Instr → Option (W64 × (List Byte → Bool))
  | .waitSw _ a b => some (readS a.toNat s, fun w => leAt w 6 2 != (readS b.toNat s).toNat % 65536)
  | .waitBs _ a b => some (readS a.toNat s, fun w => leAt w 14 1 != (readS b.toNat s).toNat % 256)
  | _ => none

/-- The instructions that stall for an access: its address, bytes, whether it is an acquire or a release, what it does and its latency. -/
def awaited (s : State) : Instr → Option (W64 × Nat × AccessKind × Bool × Bool × AccessOp × Nat)
  | .tspawn a => some (readS a.toNat s, 64, .read, false, true, .load, 4)
  | .npost _ a => some (readS a.toNat s, 64, .read, false, true, .load, 4)
  | .tjoin _ a => some (readS a.toNat s, 16, .read, true, false, .load, 4)
  | .waitSw _ a _ => if homeSized (readS a.toNat s) 16 then none else some (readS a.toNat s, 16, .read, true, false, .load, 4)
  | .waitBs _ a _ => if homeSized (readS a.toNat s) 16 then none else some (readS a.toNat s, 16, .read, true, false, .load, 4)
  | .bara _ a b => some (readS a.toNat s, 16, .atomic, false, true, .arrive ((readS b.toNat s).setWidth 48).toInt, 6)
  | _ => none

end Sys2Proof.Claims

/-- R179, R181, R182, R251, R266: TSPAWN, TJOIN, WAIT, BARA and NPOST make one access of their operand and stall until it has answered;
a TSPAWN or NPOST first waits for every earlier access. A WAIT on a word of the home window reads it there and then, as an acquire, and commits
in the cycle in which the test passes (R182 and the cycles of R406). -/
def Obligations.WaitingInstructionsMakeTheirAccess : Prop :=
  (∀ i s va test p, Claims.waitTest s i = some (va, test) → Claims.homeSized va 16 = true → Clear i s → s.core.act.wait = .none →
    xlate va.toNat 16 .read 16 s = .ok p → Reachable [p] va.toNat .load s →
    let u := touch va.toNat s
    exec i s = .next (if mayPerform u u.core.act.holds (mkAccess u s.core.slot.xb.toNat true false va.toNat [p] .load .none 0) &&
      test (readPieces u [p]) then u else stall u)) ∧
  ∀ i s va len kind acq rel op L p, Claims.awaited s i = some (va, len, kind, acq, rel, op, L) → Clear i s → s.core.act.wait = .none →
    (∀ d a, i = .tspawn a ∨ i = .npost d a → allPerformed s s.core.act.tid = true) →
    xlate va.toNat len kind len s = .ok p → Reachable [p] va.toNat op s →
    let u := touch va.toNat s
    let home := decide (va.toNat % 2 ^ 57 + len ≤ 0x400000)
    let x := mkAccess u s.core.slot.xb.toNat acq rel va.toNat [p] op .waiting (answerUnits u home L [p])
    exec i s = .next (stall (modAct (fun c => { c with wait := .access x.id 0 })
      (if home = true then soon (.accessPerform x.id) { u with accesses := u.accesses ++ [x], nextId := u.nextId + 1 } else sendAccess x u)))

/-- R181, R182, R251, R265, R266, R348, R353: what TSPAWN, TJOIN, WAIT, BARA and NPOST do when their access has answered; NPOST hands a good
request to its engine, which forms the operation and whose sequence number it returns, and stalls while the engine can take no more. -/
def Obligations.WaitingInstructionsTakeTheAnswer : Prop :=
  (∀ s x n ph, s.core.act.wait = .access n ph → accessAt s n = some x → x.answered = true → x.failed = none →
    let u := Claims.taken x s
    (∀ a, Clear (.tspawn a) s → descriptorBad u x.data = none →
      let q := homeKiosk (quadOf s.lcn) (parseDescriptor x.data)
      ∃ d ≤ (if q = quadOf s.lcn then 16 else if dieOfQuad q = dieOfQuad (quadOf s.lcn) then 96 else 192), exec (.tspawn a) s =
        .next (inTicks d (.taskAcceptance q (.core s.lcn s.core.act.tid) x.data) { u with free := u.free + 1 })) ∧
    (∀ a o, Clear (.tspawn a) s → descriptorBad u x.data = some o → exec (.tspawn a) s = .next (trap 0x8C (BitVec.ofNat 64 o) u)) ∧
    (∀ d a, Clear (.tjoin d a) s → leAt x.data 4 4 ≤ leAt x.data 0 4 → ∃ t, exec (.tjoin d a) s = .next t ∧
      WroteScalar d.toNat (Claims.joinResult x.data) 1 u t) ∧
    (∀ d a, Clear (.tjoin d a) s → leAt x.data 0 4 < leAt x.data 4 4 → exec (.tjoin d a) s = .next (stall u)) ∧
    (∀ z a b, Clear (.waitSw z a b) s → exec (.waitSw z a b) s =
      .next (if leAt x.data 6 2 = (readS b.toNat s).toNat % 65536 then stall u else u)) ∧
    (∀ z a b, Clear (.waitBs z a b) s → exec (.waitBs z a b) s =
      .next (if leAt x.data 14 1 = (readS b.toNat s).toNat % 256 then stall u else u)) ∧
    (∀ d a b, Clear (.bara d a b) s → ∃ t, exec (.bara d a b) s = .next t ∧
      WroteScalar d.toNat (BitVec.ofNat 64 (leAt x.data 14 1)) 1 u t)) ∧
  (∀ s d a x k ph, Clear (.npost d a) s → s.core.act.wait = .access k ph → accessAt s k = some x → x.answered = true → x.failed = none →
    let u := Claims.taken x s
    let asid := s.core.act.asid
    (∀ o, requestBad u asid x.data = some o → exec (.npost d a) s = .next (trap 0x8B (BitVec.ofNat 64 o) u)) ∧
    (requestBad s asid x.data = none → engineRefuses x.data s = true → exec (.npost d a) s = .next (stall s)) ∧
    (requestBad u asid x.data = none → engineRefuses x.data s = false →
      let port := requestPort u asid x.data
      let e := netAt u (port / 4)
      let r := parseRequest x.data e.seq port u
      ∃ t, exec (.npost d a) s = .next t ∧ WroteScalar d.toNat (BitVec.ofNat 64 e.seq) 1
        (setNet (port / 4) ⟨e.queue ++ [r], e.seq + 1, e.out ++ [r.operation]⟩ { u with nextId := u.nextId + 1 }) t))

/-- R61, R118, R180, R183, R184: TEXIT stalls while anything of the context is under way, then asks for the join update and the swap that ends
the task; YIELD asks for a swap when an entry of its band or a higher one admits the core; HWIN claims host entries. -/
def Obligations.TexitYieldAndHostWindow : Prop :=
  (∀ s a, Clear (.texit a) s → (undrained s = true → exec (.texit a) s = .next (stall s)) ∧
    (undrained s = false → ∀ t, s.core.act.task = some t → exec (.texit a) s = .next (modCore (fun d => { d with swapReq := some .exited })
      (if t.desc.joinp = 0 then s else soon (.joinUpdate s.lcn t.taskid (readS a.toNat s)) s)))) ∧
  (∀ s (n : BitVec 9), let k := min (if s.core.slot.hdr then (s.core.slot.xb ++ n).toNat else n.toNat) 4096
    (Clear .yield s → s.core.swapReq = none →
      exec .yield s = .next (if yields s = true then modCore (fun d => { d with swapReq := some (.yielded s.core.slot.tick) }) s else s)) ∧
    (Clear (.hwin n) s → ∃ t, exec (.hwin n) s = .next t ∧
      (ingressAt t (dieOf s.lcn)).entries = Claims.claimed (s.core.act.tid, s.nextId) (tickNow s) k (ingressAt s (dieOf s.lcn)).entries ∧
      { t with ingress := [], agenda := [] } = { s with ingress := [], agenda := [] }))

/-- R90, R101, R185, R186, R187, R191: OPSEL, FIDSET and PSUB; TLBIR and TLBIR.ALL drop the cached leaves of the ASIDs named, and where the
context's own is among them its bundle stalls for the table's read, after which the copy of the range table is made anew and the page tables are read as
they stand then (that walks see memory as it stood at an invalidation is the model's choice, assumption 17). A FIDSET while the rails still settle starts
its own settling at once: the model's choice (assumption 48). -/
def Obligations.PowerControlAndInvalidation : Prop :=
  (∀ s, (∀ k : BitVec 3, Clear (.opsel k) s → exec (.opsel k) s = .next (
      if s.core.opMove.isSome = true then modCore (fun d => { d with opHeld := some (Claims.wanted k.toNat s) }) s
      else if Claims.wanted k.toNat s = s.core.op then s else Claims.transition (Claims.wanted k.toNat s) s)) ∧
    (∀ f : BitVec 2, Clear (.fidset f) s → exec (.fidset f) s = .next (Claims.railsMoved f.toNat (modAct (fun c => { c with
      stw := (c.stw &&& ~~~0x18#64) ||| BitVec.ofNat 64 (f.toNat * 8) }) s))) ∧
    (∀ (a b : BitVec 6) (z : BitVec 3), Clear (.psub a b z) s → let w := readS b.toNat s
      (w.getLsbD 49 = true → exec (.psub a b z) s = .next (setPsub z.toNat none s)) ∧
      (∀ p, w.getLsbD 49 = false → xlate (readS a.toNat s).toNat 32 .write 32 s = .ok p → exec (.psub a b z) s =
        .next (if sensorOk (w.toNat % 65536) = true then
          setPsub z.toNat (some ⟨w.toNat % 65536, (w.extractLsb' 16 32).toInt, w.getLsbD 48, readS a.toNat s, true⟩) (touch (readS a.toNat s).toNat s)
        else trap 0x91 (BitVec.ofNat 64 (w.toNat % 65536)) s)))) ∧
  (∀ s (a : BitVec 6), let n := (readS a.toNat s).toNat % 16384
    let own := s.core.act.asid
    let u := modAct (fun c => { c with wait := .none }) s
    (Clear (.tlbir a) s → own ≠ n → ∃ t, exec (.tlbir a) s =
      .next (modCore (fun d => { d with leaves := d.leaves.filter (fun l => l.asid != n) }) t) ∧ Claims.departedSees (fun x => x == n) s t) ∧
    (∀ i, (i = .tlbir a ∧ own = n) ∨ i = .tlbirAll a → Clear i s →
      (s.core.act.wait = .none → exec i s =
        .next (stall (modAct (fun c => { c with wait := .timed (s.core.time + tableUnits s s.lcn (asidEntry s own)) [] }) s))) ∧
      (∀ due b, s.core.act.wait = .timed due b → s.core.time < due → exec i s = .next (stall s)) ∧
      (∀ due b, s.core.act.wait = .timed due b → due ≤ s.core.time →
        rangesFail s (asidEntry s own) = none → (readRanges s own).2 = [] →
        ∃ t, exec i s = .next (modAct (fun c => { c with ranges := (readRanges s own).1, tables := ⟨s.mem, s.unitKey, tickNow s⟩ })
            (modCore (fun d => { d with leaves := if i = .tlbirAll a then [] else d.leaves.filter (fun l => l.asid != n) }) t)) ∧
          Claims.departedSees (fun x => i == .tlbirAll a || x == n) u t) ∧
      (∀ due b e, s.core.act.wait = .timed due b → due ≤ s.core.time → rangesFail s (asidEntry s own) = some e →
        ∃ t, exec i s = .next (trapAt (asidEntry s own).rtab (BitVec.ofNat 8 e.1) (BitVec.ofNat 64 e.2)
            (modCore (fun d => { d with leaves := if i = .tlbirAll a then [] else d.leaves.filter (fun l => l.asid != n) }) t)) ∧
          Claims.departedSees (fun x => i == .tlbirAll a || x == n) u t)))


/-! ### Loads, stores and atomics -/

namespace Sys2Proof.Claims

/-- R244: the address operand: base plus an offset in units of `z` bytes; the ordered form has five offset bits. -/
def address (a : BitVec 6) (f : BitVec 1) (m : BitVec 8) (z : Nat) (s : State) : W64 :=
  readS a.toNat s + BitVec.ofInt 64 ((if f = 1 then (m.setWidth 5).toInt else m.toInt) * z)

/-- R106, R245: the scope of an ordered form, in bits [7:5], is POD. -/
def podForm (f : BitVec 1) (m : BitVec 8) : Bool := f == 1 && decide (5 ≤ m.toNat / 32)

/-- R245: the loads: destination, address, bytes, whether the value is sign-extended, whether the load is an acquire, and
at POD scope. -/
def loadForm (s : State) : Instr → Option (BitVec 6 × W64 × Nat × Bool × Bool × Bool)
  | .ldbS d a f m => some (d, address a f m 1 s, 1, true, f == 1, podForm f m)
  | .ldbU d a f m => some (d, address a f m 1 s, 1, false, f == 1, podForm f m)
  | .ldhS d a f m => some (d, address a f m 2 s, 2, true, f == 1, podForm f m)
  | .ldhU d a f m => some (d, address a f m 2 s, 2, false, f == 1, podForm f m)
  | .ldwS d a f m => some (d, address a f m 4 s, 4, true, f == 1, podForm f m)
  | .ldwU d a f m => some (d, address a f m 4 s, 4, false, f == 1, podForm f m)
  | .lddS d a f m => some (d, address a f m 8 s, 8, true, f == 1, podForm f m)
  | .lddU d a f m => some (d, address a f m 8 s, 8, false, f == 1, podForm f m)
  | _ => none

/-- R245: the stores: the value register, address, bytes, whether the store is a release, and at POD scope. -/
def storeForm (s : State) : Instr → Option (BitVec 6 × W64 × Nat × Bool × Bool)
  | .stb d a f m => some (d, address a f m 1 s, 1, f == 1, podForm f m)
  | .sth d a f m => some (d, address a f m 2 s, 2, f == 1, podForm f m)
  | .stw d a f m => some (d, address a f m 4 s, 4, f == 1, podForm f m)
  | .std d a f m => some (d, address a f m 8 s, 8, f == 1, podForm f m)
  | _ => none

/-- R246: the atomics: destination, address register, operand register, bytes, ordering code, operation. -/
def atomicForm (s : State) : Instr → Option (BitVec 6 × BitVec 6 × BitVec 6 × Nat × BitVec 2 × AtomicOp)
  | .cas d a b q w => some (d, a, b, if w = 1 then 8 else 4, q, .cas (readS d.toNat s))
  | .amoAdd d a b q w => some (d, a, b, if w = 1 then 8 else 4, q, .add)
  | .amoAnd d a b q w => some (d, a, b, if w = 1 then 8 else 4, q, .and)
  | .amoOr d a b q w => some (d, a, b, if w = 1 then 8 else 4, q, .or)
  | .amoXor d a b q w => some (d, a, b, if w = 1 then 8 else 4, q, .xor)
  | .amoMin d a b q w => some (d, a, b, if w = 1 then 8 else 4, q, .min)
  | .amoMax d a b q w => some (d, a, b, if w = 1 then 8 else 4, q, .max)
  | .amoMinu d a b q w => some (d, a, b, if w = 1 then 8 else 4, q, .minu)
  | .amoMaxu d a b q w => some (d, a, b, if w = 1 then 8 else 4, q, .maxu)
  | .amoSwap d a b q w => some (d, a, b, if w = 1 then 8 else 4, q, .swap)
  | .amoFadd32 d a b q => some (d, a, b, 4, q, .fadd32)
  | _ => none

/-- R246: what an atomic of `n` bits leaves in memory. -/
def atomicResult (n : Nat) (op : AtomicOp) (old b : BitVec n) : BitVec n :=
  match op with
  | .add => old + b
  | .and => old &&& b
  | .or => old ||| b
  | .xor => old ^^^ b
  | .min => if old.toInt ≤ b.toInt then old else b
  | .max => if b.toInt ≤ old.toInt then old else b
  | .minu => if old.toNat ≤ b.toNat then old else b
  | .maxu => if b.toNat ≤ old.toNat then old else b
  | .swap => b
  | .fadd32 => BitVec.ofNat n (fp32.addNum (fp32.decode old.toNat) (fp32.decode b.toNat)).1
  | .cas c => if old = c.setWidth n then b else old

/-- R93, R371: an aligned access of `z` bytes within the home window of a core of the module. -/
def inHome (va : W64) (z : Nat) (s : State) : Prop := s.lcn < Config.numCores ∧ va.toNat + z ≤ 0x400000 ∧ va.toNat % z = 0

/-- R107, R284: nothing of the context that must come first holds an access to the home window back; `pod`: its scope is POD. -/
def mayGo (acq rel pod : Bool) (va : W64) (ps : List Piece) (op : AccessOp) (s : State) : Prop :=
  Reachable ps va.toNat op s ∧
    mayPerform s s.core.act.holds { mkAccess s s.core.slot.xb.toNat acq rel va.toNat ps op .none 0 with pod := pod } = true

/-- R246: the flags of an AMO.FADD32 join STW when it completes. -/
def pendingFlags (n : Nat) (due : Option Nat) (fl : Nat) (t : State) : State :=
  modAct (fun c => { c with completions := c.completions ++
    [⟨n, due, BitVec.ofNat 5 fl, BitVec.ofNat 5 c.fen, BitVec.ofNat 18 c.here, 0, c.order, 0, 0, [], none⟩] }) t

end Sys2Proof.Claims

/-- R93, R244, R245: a load of an aligned value in the home window returns the little-endian value of its bytes, extended, in 4
cycles.
R93, R244, R245: a store to the home window writes the low bytes of its register there and changes nothing else. -/
def Obligations.LoadsReturnAndStoresWriteTheirBytes : Prop :=
  (
  ∀ i s d va z signed acq pod, Claims.loadForm s i = some (d, va, z, signed, acq, pod) → Clear i s → Claims.inHome va z s →
    let p := homeSpan s va.toNat z
    Claims.mayGo acq false pod va [p] .load s →
    let v := BitVec.ofNat (8 * z) (fromBytes (readLocal s 0 (localOf p.pa) z))
    ∃ t, exec i s = .next t ∧
      WroteScalar d.toNat (if signed = true then v.signExtend 64 else v.setWidth 64) 4 { s with nextId := s.nextId + 1 } t) ∧
  (
  ∀ i s d va z rel pod, Claims.storeForm s i = some (d, va, z, rel, pod) → Clear i s → Claims.inHome va z s → s.memOk = true →
    let p := homeSpan s va.toNat z
    p.inMemory s →
    let bs := toBytes z (readS d.toNat s).toNat
    Claims.mayGo false rel pod va [p] (.store bs) s →
    ∃ t, exec i s = .next t ∧ StoredAt p bs s t ∧ t.noMemory = s.noMemory ∧ t.memOk = true)

/-- R103, R246: an atomic in the home window replaces the value and returns the old one, zero-extended, in 6 cycles. -/
def Obligations.AtomicsReplaceAndReturn : Prop :=
  ∀ i s d a b z q op, Claims.atomicForm s i = some (d, a, b, z, q, op) → Clear i s → Claims.inHome (readS a.toNat s) z s → s.memOk = true →
    let va := readS a.toNat s
    let p := homeSpan s va.toNat z
    p.inMemory s →
    Claims.mayGo (q.getLsbD 0) (q.getLsbD 1) (pkgOf p.pa != pkgId s) va [p] (.atomic op (readS b.toNat s)) s →
    let old := BitVec.ofNat (8 * z) (fromBytes (readLocal s 0 (localOf p.pa) z))
    let new := Claims.atomicResult (8 * z) op old ((readS b.toNat s).setWidth (8 * z))
    ∃ u t, StoredAt p (toBytes z new.toNat) s u ∧ u.noMemory = s.noMemory ∧ u.memOk = true ∧
      WroteScalar d.toNat (old.setWidth 64) 6 { u with nextId := s.nextId + 1 } t ∧
      exec i s = .next (if op = .fadd32 then
        Claims.pendingFlags s.nextId (some (s.core.cycle + 6))
          (fp32.addNum (fp32.decode old.toNat) (fp32.decode ((readS b.toNat s).toNat % 2 ^ 32))).2 t else t)

/-- R93, R219, R245, R246, R247, R371, R373: an access beyond the home window is sent, and its value arrives with its answer; one in the window
whose address is not a multiple of its size, or has bits above 56, traps, the lowest code first, and changes nothing. -/
def Obligations.AccessesAreSentOrTrap : Prop :=
  (∀ i s,
    (∀ d va z signed acq pod p, Claims.loadForm s i = some (d, va, z, signed, acq, pod) → Clear i s → 0x400000 < va.toNat % 2 ^ 57 + z →
      xlate va.toNat z .read z s = .ok p → Reachable [p] va.toNat .load s → let u := touch va.toNat s
      exec i s = .next (writeSDue d.toNat 0 none (sendAccess { mkAccess u s.core.slot.xb.toNat acq false va.toNat [p] .load
        (scalarReturn u d.toNat z signed) ((halves u s.lcn [p]).2 * Config.unitsPerTick) with pod := pod } u))) ∧
    (∀ d va z rel pod p, Claims.storeForm s i = some (d, va, z, rel, pod) → Clear i s → 0x400000 < va.toNat % 2 ^ 57 + z →
      xlate va.toNat z .write z s = .ok p → Reachable [p] va.toNat (.store (toBytes z (readS d.toNat s).toNat)) s → let u := touch va.toNat s
      exec i s = .next (sendAccess { mkAccess u s.core.slot.xb.toNat false rel va.toNat [p] (.store (toBytes z (readS d.toNat s).toNat))
        .none ((halves u s.lcn [p]).2 * Config.unitsPerTick) with pod := pod } u)) ∧
    (∀ d a b z q op p, Claims.atomicForm s i = some (d, a, b, z, q, op) → Clear i s →
      0x400000 < (readS a.toNat s).toNat % 2 ^ 57 + z → xlate (readS a.toNat s).toNat z .atomic z s = .ok p →
      Reachable [p] (readS a.toNat s).toNat (.atomic op (readS b.toNat s)) s → let u := touch (readS a.toNat s).toNat s
      let t := writeSDue d.toNat 0 none (sendAccess { mkAccess u s.core.slot.xb.toNat (q.getLsbD 0) (q.getLsbD 1)
        (readS a.toNat s).toNat [p] (.atomic op (readS b.toNat s)) (scalarReturn u d.toNat z false)
        ((halves u s.lcn [p]).2 * Config.unitsPerTick) with pod := pkgOf p.pa != pkgId s } u)
      exec i s = .next (if op = .fadd32 then Claims.pendingFlags s.nextId none 0 t else t))) ∧
  (∀ i s z va, ((∃ d signed acq pod, Claims.loadForm s i = some (d, va, z, signed, acq, pod)) ∨ (∃ d rel pod, Claims.storeForm s i = some (d, va, z, rel, pod)) ∨
      (∃ d a b q op, Claims.atomicForm s i = some (d, a, b, z, q, op) ∧ va = readS a.toNat s)) → Clear i s →
    va.toNat % 2 ^ 57 + z ≤ 0x400000 →
    (2 ^ 57 ≤ va.toNat → exec i s = .next (trapAt va.toNat 0x60 va s)) ∧
    (va.toNat < 2 ^ 57 → va.toNat % z ≠ 0 → exec i s = .next (trapAt va.toNat 0x67 va s)))


/-! ### Ordering, barriers, circuits and the network -/

namespace Sys2Proof.Claims

/-- R248, R284: the accesses of the context, of the classes of a mask, that have not performed; at POD scope also those to another package that
have not been acknowledged. -/
def fenced (mask : BitVec 16) (pod : Bool) (s : State) : List Nat :=
  (s.accesses.filter (fun a => a.taskid == s.core.act.tid && mask.getLsbD a.cls && (!a.performed || (pod && a.sent.isSome && !a.answered)))).map Access.id

/-- R249: what an access performs writes memory. -/
def writes (op : AccessOp) : Prop := op ≠ .load ∧ ∀ z n id, op ≠ .barrier z n id

/-- R63, R64: the network that a scope's identifier belongs to, its configuration and the number of participants. -/
def network (z : Scope) (n : Nat) : Nat := match z with | .quad => n / 4 | .die => n / 144 | _ => 0

/-- R63: whether BARN of a scope may use an identifier: its configuration is enabled, for the context's ASID and with participants. -/
def mayArrive (z : Scope) (id : Nat) (s : State) : Prop :=
  let w := regRaw s (barcfgAddr z s.lcn id)
  w.testBit 35 = true ∧ w % 2 ^ 21 ≠ 0 ∧ w / 2 ^ 21 % 2 ^ 14 = s.core.act.asid

/-- R109, R284, R391: the arrival of the context, a release, may be made: every earlier access has performed, and at POD scope every one to
another package has been acknowledged and none was lost to a station taken out of service. -/
def quiet (z : Scope) (s : State) : Prop :=
  allPerformed s s.core.act.tid = true ∧
    (z = .pod → stationLost s s.core.act.tid = false ∧
      ∀ x ∈ s.accesses, x.taskid = s.core.act.tid → x.id < s.nextId → x.sent ≠ none → x.answered = true)

/-- R63, R64, R65, R66: what one arrival of `parts` does, for a release time of at most `bound` ticks: it is counted unless another module counts a
POD identifier; what came in this tick before is kept apart (R66). -/
def arrived (z : Scope) (place id parts bound : Nat) (s t : State) : Prop :=
  let o := barrierAt s z place id
  let b := if o.tick = tickNow s then o else { o with tick := tickNow s, fresh := 0, begun := 0 }
  let elsewhere := z = .pod ∧ ∃ q < pkgId s, Config.podEnabled q id (tickNow s) = true
  (elsewhere → t = s) ∧
  (¬elsewhere → b.count + 1 < parts → t = putBarrier { b with count := b.count + 1, fresh := b.fresh + 1 } s) ∧
  (¬elsewhere → parts ≤ b.count + 1 → ∃ d ≤ bound, t = inTicks d (.barrierRelease z place id)
    { putBarrier { b with count := 0, releasing := b.releasing + 1, fresh := b.fresh + 1, begun := b.begun + 1 } s with free := s.free + 1 })

/-- R249: a write of the context to the windows of its core's instruction memory and control store has not performed: an access, a burst, or
one that a copy has still to issue. -/
def codeWritten (s : State) : Prop :=
  (∃ a ∈ pendingOf s s.core.act.tid, writes a.op ∧ ∃ p ∈ a.pieces, pkgOf p.pa = pkgId s ∧ inWindow s.lcn (localOf p.pa) = true) ∨
    (∃ b ∈ s.bursts, b.taskid = s.core.act.tid ∧ ∃ p ∈ b.dst, pkgOf p.pa = pkgId s ∧ inWindow s.lcn (localOf p.pa) = true) ∨
    copiesReach s = true

/-- R65: the bounds of a release. -/
def releaseTicks (z : Scope) : Nat := match z with | .quad => 8 | .die => 48 | .pkg => 160 | _ => 2400

end Sys2Proof.Claims

/-- R107, R248, R249, R250: FENCE holds later accesses of its classes back behind the earlier ones; SYNCI and SYNCA stall until what they
wait for has performed.
R116, R251: BARS arms a slot in the home window with one 16-byte write; BARRT clears its state's top bit and keeps every other byte; a
count of 0 traps. -/
def Obligations.FencesSyncsAndBarrierSlots : Prop :=
  (
  ∀ s (z : BitVec 3) (m : BitVec 16),
    (Clear (.fence z m) s → ∃ live, exec (.fence z m) s = .next (modAct (fun c => { c with holds := live }) s) ∧
      (∀ cls < 16, ∀ id, held s s.core.act.tid live cls id = (held s s.core.act.tid s.core.act.holds cls id ||
        (m.getLsbD cls && !(Claims.fenced m (decide (5 ≤ z.toNat)) s).isEmpty && !(Claims.fenced m (decide (5 ≤ z.toNat)) s).contains id)))) ∧
    (Clear .synci s → (Claims.codeWritten s → exec .synci s = .next (stall s)) ∧ (¬Claims.codeWritten s → exec .synci s = .next s)) ∧
    (Clear .synca s → s.core.act.wait = .none → exec .synca s = .next (if unsettled false s = true ∨ segmentsBegun s.core.act ≠ [] then
      stall (modAct (fun c => { c with wait := .segments (segmentsBegun s.core.act) }) s) else s)) ∧
    (∀ l, Clear .synca s → s.core.act.wait = .segments l → unsettled false s = false → (∀ g ∈ l, g ∉ segmentsBegun s.core.act) →
      exec .synca s = .next (modAct (fun c => { c with wait := .none }) s)) ∧
    (Clear .syncaAll s → exec .syncaAll s = .next (if unsettled true s = true then stall s else s))) ∧
  (
  ∀ s (z : BitVec 3) (a b : BitVec 6), s.memOk = true →
    let va := readS a.toNat s
    let n := (readS b.toNat s).toNat % 2 ^ 32
    let p := homeSpan s va.toNat 16
    let old := readLocal s 0 (localOf p.pa) 16
    Claims.inHome va 16 s → p.inMemory s →
    (Clear (.bars z a b) s → n = 0 → exec (.bars z a b) s = .next (trap 0x86 va s)) ∧
    (Clear (.bars z a b) s → n ≠ 0 → Claims.mayGo false false false va [p] (.arm n z.toNat) s → ∃ t, exec (.bars z a b) s = .next t ∧
      StoredAt p (toBytes 4 n ++ toBytes 4 n ++ toBytes 6 0 ++ toBytes 1 0 ++ toBytes 1 (0x80 + z.toNat)) s t ∧
      t.noMemory = s.noMemory ∧ t.memOk = true) ∧
    (Clear (.barrt a) s → Claims.mayGo false false false va [p] .retire s → ∃ t, exec (.barrt a) s = .next t ∧
      StoredAt p (old.take 15 ++ [old.getD 15 0 &&& 0x7F#8]) s t ∧ t.noMemory = s.noMemory ∧ t.memOk = true))

/-- R63, R64, R65, R252, R284, R353: BARN and BARN.A arrive at an identifier their ASID may use, once every earlier access has performed (at POD
scope: has been acknowledged); BARN then stalls until the generation it arrived in is over; BARN.A commits at once, its arrival following the
accesses; LANE and CORE complete at once. -/
def Obligations.BarrierNetworksCountArrivals : Prop :=
  ∀ s (z : BitVec 3) (b : BitVec 4), let sc := scopeOf z.toNat
    let pl := Claims.network sc s.lcn
    let parts := regRaw s (barcfgAddr sc s.lcn b.toNat) % 2 ^ 21
    (∀ i, i = .barn z b ∨ i = .barnA z b → Clear i s → s.core.act.wait = .none → z.toNat < 2 → exec i s = .next s) ∧
    (∀ i, i = .barn z b ∨ i = .barnA z b → Clear i s → s.core.act.wait = .none → 2 ≤ z.toNat → ¬Claims.mayArrive sc b.toNat s →
      exec i s = .next (trap 0x87 (BitVec.ofNat 64 (z.toNat + b.toNat * 16)) s)) ∧
    (Clear (.barn z b) s → s.core.act.wait = .none → 2 ≤ z.toNat → Claims.mayArrive sc b.toNat s → ¬Claims.quiet sc s →
      exec (.barn z b) s = .next (stall s)) ∧
    (Clear (.barnA z b) s → 2 ≤ z.toNat → Claims.mayArrive sc b.toNat s → ¬Claims.quiet sc s → exec (.barnA z b) s =
      .next (soon (.accessPerform s.nextId) { s with
        nextId := s.nextId + 1
        accesses := s.accesses ++ [{ mkAccess s 0 false true 0 [] (.barrier sc pl b.toNat) .none 0 with pod := sc == .pod }] })) ∧
    (Clear (.barnA z b) s → 2 ≤ z.toNat → Claims.mayArrive sc b.toNat s → Claims.quiet sc s →
      ∃ t, exec (.barnA z b) s = .next t ∧ Claims.arrived sc pl b.toNat parts (Claims.releaseTicks sc) s t) ∧
    (Clear (.barn z b) s → s.core.act.wait = .none → 2 ≤ z.toNat → Claims.mayArrive sc b.toNat s → Claims.quiet sc s →
      let gen := (barrierAt s sc pl b.toNat).gen + (barrierAt s sc pl b.toNat).releasing
      ∃ t, exec (.barn z b) s = .next (stall (modAct (fun c => { c with wait := .barrier sc pl b.toNat gen }) t)) ∧
        Claims.arrived sc pl b.toNat parts (Claims.releaseTicks sc) s t) ∧
    (∀ gen, Clear (.barn z b) s → s.core.act.wait = .barrier sc pl b.toNat gen → exec (.barn z b) s =
      .next (if (barrierAt s sc pl b.toNat).gen ≤ gen then stall s else modAct (fun c => { c with wait := .none }) s))

/-- R261, R262, R353: COPEN takes the lowest free handle and launches a lantern; CHOLD extends a lease; CCLOSE closes; CSTAT tells. -/
def Obligations.CircuitsAreOpenedHeldClosedAndQueried : Prop :=
  ∀ s (d a b : BitVec 6), let cid := (readS a.toNat s).toNat % 2048
    let n := (readS a.toNat s).toNat % 8
    let h := s.core.act.handles.getD n Handle.free
    let own := CircuitOwner.handle s.core.act.tid n
    let asked := (readS b.toNat s).toNat % 2 ^ 32
    let left := match h.st with | .pending => h.lease | .opened | .closing => h.lease - tickNow s | _ => 0
    (Clear (.copen d a b) s → farBad s cid = true → exec (.copen d a b) s = .next (trap 0x8A (BitVec.ofNat 64 cid) s)) ∧
    (Clear (.copen d a b) s → farBad s cid = false → (∀ v ∈ s.core.act.handles, v.st ≠ .free) →
      ∃ t, exec (.copen d a b) s = .next t ∧ WroteScalar d.toNat 0xFF 1 s t) ∧
    (∀ k, Clear (.copen d a b) s → farBad s cid = false → (∃ v, s.core.act.handles[k]? = some v ∧ v.st = .free) →
      (∀ j < k, ∀ v, s.core.act.handles[j]? = some v → v.st ≠ .free) →
      let g := if asked = 0 then 1048576 else min asked Config.leaseMax
      let far := resolveCid s cid
      ∃ t, exec (.copen d a b) s = .next t ∧ WroteScalar d.toNat (BitVec.ofNat 64 (k + g * 256)) 1
        (inTicks 2048 (.lanternTimeout s.nextId) (inTicks 4 (.lanternHop s.nextId) { modAct (fun c => { c with
            handles := c.handles.set k ⟨.pending, far, 0, g, [], false, false, (c.handles.getD k Handle.free).gen + 1⟩ }) s with
          nextId := s.nextId + 1
          lanterns := s.lanterns ++ [⟨s.nextId, .handle s.core.act.tid k, s.lcn, far, s.core.act.staging0.label.toNat, [], 0, 0, .probe, tickNow s⟩] })) t) ∧
    (Clear (.chold d a b) s → h.st ≠ .opened ∨ h.expired = true → ∃ t, exec (.chold d a b) s = .next t ∧ WroteScalar d.toNat 0 1 s t) ∧
    (Clear (.chold d a b) s → h.st = .opened → h.expired = false → let r := min (left + asked) Config.leaseMax
      ∃ t, exec (.chold d a b) s = .next t ∧ WroteScalar d.toNat (BitVec.ofNat 64 r) 1
        (atTime ((tickNow s + r) * Config.unitsPerTick) (.circuitLeaseExpiry s.core.act.tid n)
          (modAct (fun c => { c with handles := c.handles.set n { h with lease := tickNow s + r } }) s)) t) ∧
    (Clear (.cclose a) s → exec (.cclose a) s = .next (match h.st with
      | .opened => if h.streams = [] then releaseOwner own (modAct (fun c => { c with handles := c.handles.set n h.freed }) s)
        else modAct (fun c => { c with handles := c.handles.set n { h with st := .closing } }) s
      | .pending => releaseOwner own (modAct (fun c => { c with handles := c.handles.set n h.freed }) s)
      | .refused | .lost => modAct (fun c => { c with handles := c.handles.set n h.freed }) s
      | .free | .closing => s)) ∧
    (Clear (.cstat d a) s → ∃ t, exec (.cstat d a) s = .next t ∧
      WroteScalar d.toNat (BitVec.ofNat 64 (h.st.code + h.back * 2 ^ 8 + min left 0xFFFFFFFF * 2 ^ 16 + h.streams.length * 2 ^ 48)) 1 s t)


/-! ### Vector instructions -/

namespace Sys2Proof.Claims

/-- R195, R197: what an instruction in a cluster does to its vector destination: the destination, the lane mask, the sources whose tags
are checked (as the slot writes them) with the tags their role accepts (`none`: all but 13 to 15), the sources of which only the tags 13 to 15
are not accepted, the result tag, the elements per lane, the latency, whether flags may be raised, and the bits and flags of each element. -/
structure VectorForm where
  v : Cluster
  d : BitVec 6
  m : BitVec 64
  srcs : List (Nat × Nat)
  accepted : Option (List Nat)
  loose : List (Nat × Nat)
  tag : Nat
  k : Nat
  L : Nat
  fp : Bool
  value : Nat → Nat
  flags : Nat → Nat

/-- R197, R351: every source carries a tag its role accepts, and all the same one. -/
def VectorForm.tagsGood (f : VectorForm) : Prop :=
  (∀ p ∈ f.srcs, p.2 < 13 ∧ (∀ a, f.accepted = some a → p.2 ∈ a) ∧ ∀ q ∈ f.srcs, q.2 = p.2) ∧ ∀ p ∈ f.loose, p.2 < 13

/-- R194: the elements of `r` that mask `m` enables have the given bits. -/
def elementsAre (r : VReg) (k : Nat) (m : BitVec 64) (value : Nat → Nat) : Prop :=
  ∀ e < 64 * k, m.getLsbD (e / k) = true → r.el k e = value e % 2 ^ (32 / k)

/-- R131: one cycle more when a source is the other cluster's register. -/
def crossing (l : List (BitVec 6)) : Nat := if ∃ x ∈ l, 32 ≤ x.toNat then 1 else 0

/-- A source as its fault detail shows it, with its tag. -/
def source (s : State) (x : BitVec 6) (r : VReg) : Nat × Nat := (asWritten s x, r.tag)

/-- R200: a floating-point instruction of two sources. -/
def fp2Form (s : State) (v : Cluster) (d a b : BitVec 6) (m : BitVec 3) (tags : List Nat) (L : Nat) (g : Fmt → Nat → Nat → Nat × Nat) : VectorForm :=
  let x := readV v a.toNat s
  let y := readV v b.toNat s
  let k := perLane x.tag
  ⟨v, d, readMask v m.toNat s, [source s a x, source s b y], some tags, [], x.tag, k, L + crossing [a, b], true,
    fun e => (g (fmtOfTag x.tag) (x.el k e) (y.el k e)).1, fun e => (g (fmtOfTag x.tag) (x.el k e) (y.el k e)).2⟩

/-- R200: a floating-point instruction of one source. -/
def fp1Form (s : State) (v : Cluster) (d a : BitVec 6) (m : BitVec 3) (tags : List Nat) (L : Nat) (g : Fmt → Nat → Nat × Nat) : VectorForm :=
  let x := readV v a.toNat s
  let k := perLane x.tag
  ⟨v, d, readMask v m.toNat s, [source s a x], some tags, [], x.tag, k, L + crossing [a], true,
    fun e => (g (fmtOfTag x.tag) (x.el k e)).1, fun e => (g (fmtOfTag x.tag) (x.el k e)).2⟩

/-- R200: a fused multiply-add: A × B plus the destination. -/
def fmaForm (s : State) (v : Cluster) (d a b : BitVec 6) (m : BitVec 3) (g : Fmt → Machine.Num → Machine.Num → Machine.Num → Nat × Nat) : VectorForm :=
  let x := readV v a.toNat s
  let y := readV v b.toNat s
  let z := readV v d.toNat s
  let k := perLane x.tag
  let f := fmtOfTag x.tag
  let r (e : Nat) := g f (f.decode (x.el k e)) (f.decode (y.el k e)) (f.decode (z.el k e))
  ⟨v, d, readMask v m.toNat s, [source s a x, source s b y, source s d z], some [1, 2, 3], [], x.tag, k, 5 + crossing [a, b], true,
    fun e => (r e).1, fun e => (r e).2⟩

/-- R202: the exact integer result narrowed to an element of `w` bits: clamped to its range when SAT, else wrapped. -/
def narrowed (s : State) (w : Nat) (x : Int) : Nat :=
  let lo : Int := if s.core.slot.xb.getLsbD 1 then 0 else -2 ^ (w - 1)
  let hi : Int := if s.core.slot.xb.getLsbD 1 then 2 ^ w - 1 else 2 ^ (w - 1) - 1
  ((if s.core.slot.xb.getLsbD 0 then max lo (min x hi) else x) % 2 ^ w).toNat

/-- R202: an element of `w` bits as an integer: unsigned when U is set. -/
def integer (s : State) (w x : Nat) : Int := if s.core.slot.xb.getLsbD 1 then x else (BitVec.ofNat w x).toInt

/-- R202: an integer instruction; `acc` says that it reads its destination too. -/
def intForm (s : State) (v : Cluster) (d a b : BitVec 6) (m : BitVec 3) (acc : Bool) (L : Nat) (g : Int → Int → Int → Int) : VectorForm :=
  let x := readV v a.toNat s
  let y := readV v b.toNat s
  let z := readV v d.toNat s
  let k := perLane x.tag
  let w := 32 / k
  ⟨v, d, readMask v m.toNat s, [source s a x, source s b y] ++ (if acc then [source s d z] else []), some [9, 10, 11], [], x.tag, k,
    L + crossing [a, b], false,
    fun e => narrowed s w (g (integer s w (x.el k e)) (integer s w (y.el k e)) (integer s w (z.el k e))), fun _ => 0⟩

/-- R203: a shift of each element by the low bits of B's element. -/
def shiftForm (s : State) (v : Cluster) (d a b : BitVec 6) (m : BitVec 3) (g : Nat → Nat → Nat → Nat) : VectorForm :=
  let x := readV v a.toNat s
  let y := readV v b.toNat s
  let k := perLane x.tag
  ⟨v, d, readMask v m.toNat s, [source s a x, source s b y], some [0, 9, 10, 11], [], x.tag, k, 1 + crossing [a, b], false,
    fun e => g (32 / k) (x.el k e) (y.el k e % (32 / k)), fun _ => 0⟩

/-- R200 to R203: the instructions that act element by element. -/
def elementForm (s : State) : Instr → Option VectorForm
  | .vadd v d a b m => some (fp2Form s v d a b m [1, 2, 3, 12] 4 (fun f x y => f.addNum (f.decode x) (f.decode y)))
  | .vsub v d a b m => some (fp2Form s v d a b m [1, 2, 3, 12] 4 (fun f x y => f.addNum (f.decode x) (f.decode y).negate))
  | .vmul v d a b m => some (fp2Form s v d a b m [1, 2, 3] 4 (fun f x y => f.mulBits (f.decode x) (f.decode y)))
  | .vmin v d a b m => some (fp2Form s v d a b m [1, 2, 3] 2 (fun f x y => f.minMax false x y))
  | .vmax v d a b m => some (fp2Form s v d a b m [1, 2, 3] 2 (fun f x y => f.minMax true x y))
  | .vfma v d a b m => some (fmaForm s v d a b m (fun f x y z => f.fmaBits x y z))
  | .vfms v d a b m => some (fmaForm s v d a b m (fun f x y z => f.fmaBits x y z.negate))
  | .vfnma v d a b m => some (fmaForm s v d a b m (fun f x y z => f.fmaBits x.negate y z))
  | .vabs v d a m => some (fp1Form s v d a m [1, 2, 3] 1 (fun f x => f.signOp (fun _ => false) x))
  | .vneg v d a m => some (fp1Form s v d a m [1, 2, 3, 12] 1 (fun f x => f.signOp (fun n => !n) x))
  | .vrcp v d a m => some (fp1Form s v d a m [1, 2, 3] 8 (fun f x => f.rcp (f.decode x)))
  | .vrsq v d a m => some (fp1Form s v d a m [1, 2, 3] 8 (fun f x => f.rsq (f.decode x)))
  | .vexp2 v d a m => some (fp1Form s v d a m [1, 2, 3] 10 (fun f x => f.exp2 (f.decode x)))
  | .vlog2 v d a m => some (fp1Form s v d a m [1, 2, 3] 10 (fun f x => f.log2 (f.decode x)))
  | .viadd v d a b m => some (intForm s v d a b m false 2 (fun x y _ => x + y))
  | .visub v d a b m => some (intForm s v d a b m false 2 (fun x y _ => x - y))
  | .vimul v d a b m => some (intForm s v d a b m false 3 (fun x y _ => x * y))
  | .vimad v d a b m => some (intForm s v d a b m true 3 (fun x y z => x * y + z))
  | .vimin v d a b m => some (intForm s v d a b m false 2 (fun x y _ => min x y))
  | .vimax v d a b m => some (intForm s v d a b m false 2 (fun x y _ => max x y))
  | .vshl v d a b m => some (shiftForm s v d a b m (fun w x n => x * 2 ^ n % 2 ^ w))
  | .vshr v d a b m => some (shiftForm s v d a b m (fun _ x n => x / 2 ^ n))
  | .vsra v d a b m => some (shiftForm s v d a b m (fun w x n => ((BitVec.ofNat w x).toInt / 2 ^ n % 2 ^ w).toNat))
  | _ => none

/-- A form of whole lanes without flags. -/
def lanesForm (v : Cluster) (d : BitVec 6) (m : BitVec 64) (srcs : List (Nat × Nat)) (tag L : Nat) (f : Nat → W32) : VectorForm :=
  ⟨v, d, m, srcs, none, [], tag, 1, L, false, fun l => (f l).toNat, fun _ => 0⟩

/-- R203, R351: a lane-wise logic instruction: of B's tag only 13 to 15 are a cause. -/
def logicForm (s : State) (v : Cluster) (d a b : BitVec 6) (m : BitVec 3) (f : W32 → W32 → W32) : VectorForm :=
  let x := readV v a.toNat s
  { lanesForm v d (readMask v m.toNat s) [source s a x] x.tag (1 + crossing [a, b]) (fun l => f (x.lane l) ((readV v b.toNat s).lane l)) with
    loose := [source s b (readV v b.toNat s)] }

/-- R214: lane `l` of a VSHUF: interleavings, even and odd lanes, the middle, the shift by one of A then B; the reversal and the swap of
halves of A alone. -/
def shuffled (p : BitVec 3) (x y : VReg) (l : Nat) : W32 :=
  let both (i : Nat) : W32 := if i < 64 then x.lane i else y.lane (i - 64)
  match p with
  | 0 => (if l % 2 = 0 then x else y).lane (l / 2)
  | 1 => (if l % 2 = 0 then x else y).lane (32 + l / 2)
  | 2 => both (2 * l)
  | 3 => both (2 * l + 1)
  | 4 => both (32 + l)
  | 5 => both (l + 1)
  | 6 => x.lane (63 - l)
  | _ => x.lane ((l + 32) % 64)

/-- R203, R205, R208, R214: the instructions that act lane by lane and whose only tag causes are those of the form. -/
def laneForm (s : State) : Instr → Option VectorForm
  | .vand v d a b m => some (logicForm s v d a b m (fun x y => x &&& y))
  | .vor v d a b m => some (logicForm s v d a b m (fun x y => x ||| y))
  | .vxor v d a b m => some (logicForm s v d a b m (fun x y => x ^^^ y))
  | .vnot v d a m =>
    let x := readV v a.toNat s
    some (lanesForm v d (readMask v m.toNat s) [source s a x] x.tag (1 + crossing [a]) (fun l => ~~~(x.lane l)))
  | .vsel v d a b k =>
    let x := readV v a.toNat s
    let y := readV v b.toNat s
    some (lanesForm v d (BitVec.allOnes 64) [source s a x, source s b y] x.tag (1 + crossing [a, b])
      (fun l => if (readMask v k.toNat s).getLsbD l then x.lane l else y.lane l))
  | .vmov v d a m =>
    let x := readV v a.toNat s
    some (lanesForm v d (readMask v m.toNat s) [source s a x] x.tag (1 + crossing [a]) x.lane)
  | .vxfer v d a m =>
    let x := readV v a.toNat s
    some (lanesForm v d (readMask v m.toNat s) [source s a x] x.tag (2 + crossing [a]) x.lane)
  | .vshuf v d a b p =>
    let x := readV v a.toNat s
    let y := readV v b.toNat s
    if p.toNat < 6 then some (lanesForm v d (BitVec.allOnes 64) [source s a x, source s b y] x.tag (2 + crossing [a, b]) (shuffled p x y))
    else some (lanesForm v d (BitVec.allOnes 64) [source s a x] x.tag (2 + crossing [a]) (shuffled p x y))
  | .vbcastL v d a k =>
    let x := readV v a.toNat s
    some (lanesForm v d (BitVec.allOnes 64) [source s a x] x.tag (2 + crossing [a]) (fun _ => x.lane k.toNat))
  | .viota v d a b m =>
    some (lanesForm v d (readMask v m.toNat s) [] 11 1 (fun l => (readS a.toNat s + BitVec.ofNat 64 l * readS b.toNat s).setWidth 32))
  | .vhclrRd v d => some (lanesForm v d (BitVec.allOnes 64) [] 11 2 (fun l => (s.core.act.hist v).getD l 0))
  | _ => none

/-- R204: the condition of VICMP on two elements of `w` bits. -/
def elementCondition (c : BitVec 3) (w a b : Nat) : Prop :=
  match c with
  | 0 => a = b
  | 1 => a ≠ b
  | 2 => (BitVec.ofNat w a).toInt < (BitVec.ofNat w b).toInt
  | 3 => (BitVec.ofNat w b).toInt ≤ (BitVec.ofNat w a).toInt
  | 4 => a < b
  | 5 => b ≤ a
  | 6 => a &&& b ≠ 0
  | _ => a &&& b = 0

/-- R206: whether pair (v, p) ranks strictly above pair (w, q). -/
def ranksAbove (ints small : Bool) (v p w q : W32) : Prop :=
  if ints = true then
    if v = w then p.toNat < q.toNat else if small = true then v.toInt < w.toInt else w.toInt < v.toInt
  else
    let x := fp32.decode v.toNat
    let y := fp32.decode w.toNat
    if x.isNan = true then y.isNan = true ∧ p.toNat < q.toNat
    else if y.isNan = true then True
    else if cmpNum x y = .eq then p.toNat < q.toNat
    else if small = true then cmpNum x y = .lt else cmpNum x y = .gt

/-- R207: the element `j` of lane `l` that a VCVT of part `p` leaves, and whether it converts one. -/
def converted (s : State) (st tt p : Nat) (x d : VReg) (l j : Nat) : Nat × Nat :=
  let ns := perLane st
  let nd := perLane tt
  let cvt := cvtElem st tt (s.core.slot.xb.getLsbD 0) (s.core.slot.xb.getLsbD 1)
  if nd < ns then cvt (x.el ns (l * ns + p * nd + j))
  else if p * ns ≤ j ∧ j < p * ns + ns then cvt (x.el ns (l * ns + (j - p * ns)))
  else (d.el nd (l * nd + j), 0)

end Sys2Proof.Claims

/-- R194 to R203, R205, R208, R214: element-by-element and lane-by-lane instructions write each enabled element, rounded or narrowed, with
their tag, and the floating ones set the OR of the flags of the enabled elements; VSEL writes every lane; its word. -/
def Obligations.VectorElementsGetTheirResult : Prop :=
  (∀ v d a b k, encode (.vsel v d a b k) = some (Claims.word v.unit 0x22 d.toNat a.toNat b.toNat k.toNat)) ∧
  ∀ i s f, Claims.elementForm s i = some f ∨ Claims.laneForm s i = some f → Clear i s → f.tagsGood →
    let fl := flagsOver (enabledElems f.k f.m) f.flags
    (∀ n < 5, bit s.core.act.fen n = true → bit fl n = false) →
    ∃ r t, exec i s = .next t ∧ Claims.elementsAre r f.k f.m f.value ∧ r.tag = f.tag ∧
      WroteVector f.v f.d.toNat f.m r (some (s.core.cycle + f.L)) (if f.fp = true then flagged fl f.L s else s) t

/-- R197, R344, R351: a source whose tag is not accepted, sources with different tags, and a tag that is accepted nowhere. -/
def Obligations.VectorSourcesOfWrongTagsTrap : Prop :=
  ∀ i s f, Claims.elementForm s i = some f ∨ Claims.laneForm s i = some f → Clear i s →
    (∀ l p r ok, f.srcs = l ++ p :: r → f.accepted = some ok → (∀ q ∈ l, q.2 ∈ ok) → p.2 ∉ ok →
      exec i s = .next (trap 0x20 (BitVec.ofNat 64 (p.1 + p.2 * 256)) s)) ∧
    (∀ h l p r, f.srcs = h :: l ++ p :: r → (∀ ok, f.accepted = some ok → ∀ q ∈ f.srcs, q.2 ∈ ok) → (∀ q ∈ l, q.2 = h.2) → p.2 ≠ h.2 →
      exec i s = .next (trap 0x21 (BitVec.ofNat 64 (h.1 + p.2 * 256)) s)) ∧
    (∀ h r, f.srcs = h :: r → f.accepted = none → (∀ q ∈ r, q.2 = h.2) → 13 ≤ h.2 →
      exec i s = .next (trap 0x22 (BitVec.ofNat 64 (h.1 + h.2 * 256)) s)) ∧
    (∀ l p r, f.loose = l ++ p :: r → (∀ q ∈ f.srcs ++ l, q.2 < 13) → 13 ≤ p.2 →
      exec i s = .next (trap 0x22 (BitVec.ofNat 64 (p.1 + p.2 * 256)) s))

/-- R204, R215: VCMP and VICMP set the mask bits of enabled lanes whose elements all satisfy the condition; mask logic, MPOP, MFFS and the
moves between masks and scalar registers; the words of the mask instructions. -/
def Obligations.MasksAreComputed : Prop :=
  (∀ v d a b o, encode (.mlog v d a b o) = some (Claims.word v.unit 0x38 d.toNat a.toNat b.toNat o.toNat)) ∧
  (∀ v d a m, encode (.mpop v d a m) = some (Claims.word v.unit 0x39 d.toNat a.toNat 0 m.toNat) ∧
    encode (.mffs v d a m) = some (Claims.word v.unit 0x3A d.toNat a.toNat 0 m.toNat) ∧
    encode (.mmovs v d a) = some (Claims.word v.unit 0x3B d.toNat a.toNat 0 0)) ∧
  (∀ v d a, encode (.mfroms v d a) = some (Claims.word v.unit 0x3C d.toNat a.toNat 0 0)) ∧
  (∀ i s v a b o (d : BitVec 6), i = .mlog v d a b o ∨ i = .mfroms v d a → d = 0 ∨ 8 ≤ d.toNat → ¬Clear i s) ∧
  ∀ s v (c d m o : BitVec 3) (a b : BitVec 6),
    let x := readV v a.toNat s
    let y := readV v b.toNat s
    let k := perLane x.tag
    let mk := readMask v m.toNat s
    let ma := readMask v a.toNat s
    let mb := readMask v b.toNat s
    (Clear (.vcmp v c d a b m) s → x.tag = y.tag → x.tag ∈ [1, 2, 3] →
      let n (r : VReg) (e : Nat) := (fmtOfTag x.tag).decode (r.el k e)
      let fl := flagsOver (enabledElems k mk) (fun e => Claims.floatConditionFlags c (n x e) (n y e))
      (∀ f < 5, bit s.core.act.fen f = true → bit fl f = false) →
      ∃ r t, exec (.vcmp v c d a b m) s = .next t ∧ WroteMask v d.toNat r (2 + Claims.crossing [a, b]) (flagged fl (2 + Claims.crossing [a, b]) s) t ∧
        ∀ l < 64, r.getLsbD l = true ↔ mk.getLsbD l = true ∧
          ∀ j < k, Claims.floatCondition c ((n x (l * k + j)).isNan || (n y (l * k + j)).isNan) (cmpNum (n x (l * k + j)) (n y (l * k + j)))) ∧
    (Clear (.vicmp v c d a b m) s → x.tag = y.tag → x.tag ∈ [0, 9, 10, 11] →
      ∃ r t, exec (.vicmp v c d a b m) s = .next t ∧ WroteMask v d.toNat r (2 + Claims.crossing [a, b]) s t ∧
        ∀ l < 64, r.getLsbD l = true ↔ mk.getLsbD l = true ∧
          ∀ j < k, Claims.elementCondition c (32 / k) (x.el k (l * k + j)) (y.el k (l * k + j))) ∧
    (∀ z, Clear (.mlog v z a b o) s → ∃ r t, exec (.mlog v z a b o) s = .next t ∧ WroteMask v z.toNat r 1 s t ∧
      ∀ l < 64, r.getLsbD l = Claims.predicateLogic o (ma.getLsbD l) (mb.getLsbD l)) ∧
    (∀ z, Clear (.mpop v z a m) s → ∃ t, exec (.mpop v z a m) s = .next t ∧
      WroteScalar z.toNat (BitVec.ofNat 64 ((List.range 64).filter (fun l => (ma &&& mk).getLsbD l)).length) 2 s t) ∧
    (∀ z, Clear (.mffs v z a m) s → ∃ n t, exec (.mffs v z a m) s = .next t ∧ WroteScalar z.toNat (BitVec.ofNat 64 n) 2 s t ∧
      n ≤ 64 ∧ (∀ l < n, (ma &&& mk).getLsbD l = false) ∧ (n < 64 → (ma &&& mk).getLsbD n = true)) ∧
    (∀ z, Clear (.mmovs v z a) s → ∃ t, exec (.mmovs v z a) s = .next t ∧ WroteScalar z.toNat ma 2 s t) ∧
    (∀ z, Clear (.mfroms v z a) s → ∃ t, exec (.mfroms v z a) s = .next t ∧ WroteMask v z.toNat (readS a.toNat s) 2 s t)

/-- R206, R207: VCX exchanges the value and index pairs of the enabled lanes in which B's pair ranks above A's, and writes all four registers;
VCVT converts the elements of the part it names and keeps the other elements of a narrower target's lane. -/
def Obligations.PairsAreOrderedAndFormatsConverted : Prop :=
  (∀ s v (z : BitVec 1) (a b : BitVec 6) (m : BitVec 3), Clear (.vcx v z a b m) s →
    let x := readV v a.toNat s
    let i := readV v (a.toNat + 8) s
    let y := readV v b.toNat s
    let j := readV v (b.toNat + 8) s
    let mk := readMask v m.toNat s
    x.tag = y.tag → i.tag = j.tag → x.tag = 1 ∨ x.tag = 11 → i.tag = 0 ∨ i.tag = 11 →
    ∃ rx ri ry rj t₁ t₂ t₃ t, exec (.vcx v z a b m) s = .next t ∧
      WroteVector v a.toNat mk rx (some (s.core.cycle + 3)) s t₁ ∧ WroteVector v (a.toNat + 8) mk ri (some (s.core.cycle + 3)) t₁ t₂ ∧
      WroteVector v b.toNat mk ry (some (s.core.cycle + 3)) t₂ t₃ ∧ WroteVector v (b.toNat + 8) mk rj (some (s.core.cycle + 3)) t₃ t ∧
      rx.tag = x.tag ∧ ri.tag = i.tag ∧ ry.tag = y.tag ∧ rj.tag = j.tag ∧
      ∀ l < 64, let above := Claims.ranksAbove (x.tag == 11) (z == 1) (y.lane l) (j.lane l) (x.lane l) (i.lane l)
        (above → rx.lane l = y.lane l ∧ ri.lane l = j.lane l ∧ ry.lane l = x.lane l ∧ rj.lane l = i.lane l) ∧
        (¬above → rx.lane l = x.lane l ∧ ri.lane l = i.lane l ∧ ry.lane l = y.lane l ∧ rj.lane l = j.lane l)) ∧
  (∀ s v (d a : BitVec 6) (p : BitVec 2) (t : BitVec 4) (m : BitVec 3), Clear (.vcvt v d a p t m) s →
    let x := readV v a.toNat s
    let ns := perLane x.tag
    let nd := perLane t.toNat
    let mk := readMask v m.toNat s
    let r := fun e => Claims.converted s x.tag t.toNat p.toNat x (readV v d.toNat s) (e / nd) (e % nd)
    let fl := flagsOver (enabledElems nd mk) (fun e => (r e).2)
    x.tag ∈ [1, 2, 3, 4, 5, 9, 10, 11] → t.toNat ∈ [1, 2, 3, 4, 5, 9, 10, 11] → p.toNat < max (nd / ns) (ns / nd) →
    (ns < nd → d.toNat < 16 ∧ ¬s.core.act.group.dests.contains (.v v d.toNat) ∧ s.core.act.resReady (.v v d.toNat) = true) →
    (∀ f < 5, bit s.core.act.fen f = true → bit fl f = false) →
    ∃ w u, exec (.vcvt v d a p t m) s = .next u ∧ Claims.elementsAre w nd mk (fun e => (r e).1) ∧ w.tag = t.toNat ∧
      WroteVector v d.toNat mk w (some (s.core.cycle + (3 + Claims.crossing [a]))) (flagged fl (3 + Claims.crossing [a]) s) u)


/-! ### Histograms, quantisation, reductions, scans and rearrangements with causes of their own -/

namespace Sys2Proof.Claims

/-- R212: one level of FADD's tree: neighbours are added, rounded to FP32. -/
def addPairs : List Machine.Num → List Machine.Num
  | x :: y :: r => fp32.decode (fp32.addNum x y).1 :: addPairs r
  | l => l

/-- R212: the flags of one level. -/
def pairFlags : List Machine.Num → Nat
  | x :: y :: r => (fp32.addNum x y).2 ||| pairFlags r
  | _ => 0

/-- R212: `n` levels: the list left and the flags raised. -/
def addTree : Nat → List Machine.Num → List Machine.Num × Nat
  | 0, l => (l, 0)
  | n + 1, l => ((addTree n (addPairs l)).1, pairFlags l ||| (addTree n (addPairs l)).2)

/-- R212: the leaves of FADD: disabled elements count as −0. -/
def leaves (x : VReg) (m : BitVec 64) : List Machine.Num :=
  (List.range (64 * perLane x.tag)).map (fun e =>
    if m.getLsbD (e / perLane x.tag) then (fmtOfTag x.tag).decode (x.el (perLane x.tag) e) else .fin true 0 0)

/-- R212: an element as an integer operation takes it: unsigned for IMAXU and IMINU. -/
def reduceElem (o : BitVec 3) (w x : Nat) : Int := if 6 ≤ o.toNat then x else (BitVec.ofNat w x).toInt

/-- R212: the integer reductions of the enabled elements. -/
def integerReduction (o : BitVec 3) (x : VReg) (m : BitVec 64) : Int :=
  let k := perLane x.tag
  let w := 32 / k
  let es := (enabledElems k m).map (fun e => reduceElem o w (x.el k e))
  match o with
  | 3 => es.sum
  | 4 => es.foldl max (-2 ^ (w - 1))
  | 5 => es.foldl min (2 ^ (w - 1) - 1)
  | 6 => es.foldl max 0
  | _ => es.foldl min (2 ^ w - 1)

/-- R213: the running value of a scan after the enabled elements below `e`. -/
def scanBefore (f : Fmt) (o k : Nat) (x : VReg) (m : BitVec 64) (e : Nat) : Nat :=
  ((enabledElems k m).filter (fun j => decide (j < e))).foldl (fun r j => (scanStep f o (32 / k) r (x.el k j)).1) (scanIdentity f o (32 / k))

/-- R81: whether element `e` counts in bin `b`. -/
def countsIn (x : VReg) (base : Int) (b e : Nat) : Bool :=
  match (fmtOfTag x.tag).decode (x.el (perLane x.tag) e) with
  | .fin _ m p => m != 0 && min (max (Machine.Num.exp m p - base) 0) 63 == b
  | _ => false

end Sys2Proof.Claims

/-- R212, R213: VREDS combines the enabled elements into a scalar; VSCAN gives each enabled element the running value that includes it. -/
def Obligations.ReductionsAndScansRunOverTheEnabledElements : Prop :=
  (∀ s v (d a : BitVec 6) (o m : BitVec 3), Clear (.vreds v d a o m) s →
    let x := readV v a.toNat s
    let mk := readMask v m.toNat s
    let L := 8 + Claims.crossing [a]
    (o = 0 → x.tag ∈ [1, 2, 3] → let r := Claims.addTree 8 (Claims.leaves x mk)
      (∀ f < 5, bit s.core.act.fen f = true → bit r.2 f = false) →
      ∃ t, exec (.vreds v d a o m) s = .next t ∧ WroteScalar d.toNat (BitVec.ofNat 64 (fp32.roundNum (r.1.headD (.fin true 0 0))).1) L (flagged r.2 L s) t) ∧
    (o = 1 ∨ o = 2 → x.tag ∈ [1, 2, 3] → let r := reduceMax (o == 1) x mk
      (∀ f < 5, bit s.core.act.fen f = true → bit (allFlags r.2) f = false) →
      ∃ t, exec (.vreds v d a o m) s = .next t ∧ WroteScalar d.toNat (BitVec.ofNat 64 r.1) L (flagged (allFlags r.2) L s) t) ∧
    (3 ≤ o.toNat → x.tag ∈ [9, 10, 11] → ∃ t, exec (.vreds v d a o m) s = .next t ∧
      WroteScalar d.toNat (BitVec.ofInt 64 (Claims.integerReduction o x mk)) L s t)) ∧
  (∀ s v (d a : BitVec 6) (o m : BitVec 3), Clear (.vscan v d a o m) s →
    let x := readV v a.toNat s
    let k := perLane x.tag
    let mk := readMask v m.toNat s
    let step (e : Nat) := scanStep (fmtOfTag x.tag) o.toNat (32 / k) (Claims.scanBefore (fmtOfTag x.tag) o.toNat k x mk e) (x.el k e)
    let fl := flagsOver (enabledElems k mk) (fun e => (step e).2)
    x.tag ∈ (if o.toNat < 3 then [1, 2, 3] else [9, 10, 11]) → (∀ f < 5, bit s.core.act.fen f = true → bit fl f = false) →
    ∃ r t, exec (.vscan v d a o m) s = .next t ∧ Claims.elementsAre r k mk (fun e => (step e).1) ∧ r.tag = x.tag ∧
      WroteVector v d.toNat mk r (some (s.core.cycle + (8 + Claims.crossing [a]))) (flagged fl (8 + Claims.crossing [a]) s) t)

namespace Sys2Proof.Claims

/-- R354: `o` is the trap of the first enabled flag that an instruction raises, with the mask of the lanes in which it arose: `fl e` are the
flags of element `e` of those that `m` enables, `k` elements a lane. -/
def flagTrap (k : Nat) (m : BitVec 64) (fl : Nat → Nat) (s : State) (o : Host.Outcome State Fault Refusal) : Prop :=
  ∀ f < 5, bit s.core.act.fen f = true → bit (flagsOver (enabledElems k m) fl) f = true →
    (∀ g < f, bit s.core.act.fen g = true → bit (flagsOver (enabledElems k m) fl) g = false) →
    ∃ w : W64, o = .next (trap (BitVec.ofNat 8 (0x40 + f)) w s) ∧
      ∀ l < 64, w.getLsbD l = true ↔ ∃ e ∈ enabledElems k m, e / k = l ∧ bit (fl e) f = true

/-- R212: FADD's list after `n` levels. -/
def treeAfter : Nat → List Machine.Num → List Machine.Num
  | 0, l => l
  | n + 1, l => addPairs (treeAfter n l)

/-- R212: the flags of addition `i` of level `j` of FADD's tree. -/
def nodeFlags (x : VReg) (m : BitVec 64) (j i : Nat) : Nat :=
  let l := treeAfter j (leaves x m)
  if 2 * i + 1 < l.length then (fp32.addNum (l.getD (2 * i) (.fin true 0 0)) (l.getD (2 * i + 1) (.fin true 0 0))).2 else 0

end Sys2Proof.Claims

/-- R138, R354: an enabled flag is a trap, in the order NV, DZ, OF, UF, NX, and nothing is written: with lane mask 1 for a scalar instruction,
for a vector one with the lanes whose elements raised it, for VREDS.FADD with the lanes of every element below an addition that raised it; raised
flags that are not enabled are sticky, and setting them changes no other bit of STW and no other register. -/
def Obligations.FlagsTrapWhenEnabledAndStayWhenRaised : Prop :=
  (∀ i s d r fl L f, Claims.floatResult s i = some (d, r, fl, L) → Clear i s → f < 5 → bit s.core.act.fen f = true → bit fl f = true →
    (∀ g < f, bit s.core.act.fen g = true → bit fl g = false) →
    exec i s = .next (trap (BitVec.ofNat 8 (0x40 + f)) 1 s)) ∧
  (∀ s c p a b f, Clear (.fcmps c p a b) s → let fl := Claims.floatConditionFlags c (fpOf (readS a.toNat s)) (fpOf (readS b.toNat s))
    f < 5 → bit s.core.act.fen f = true → bit fl f = true → (∀ g < f, bit s.core.act.fen g = true → bit fl g = false) →
    exec (.fcmps c p a b) s = .next (trap (BitVec.ofNat 8 (0x40 + f)) 1 s)) ∧
  (∀ i s f, Claims.elementForm s i = some f → f.fp = true → Clear i s → f.tagsGood → Claims.flagTrap f.k f.m f.flags s (exec i s)) ∧
  (∀ s v (c d m : BitVec 3) (a b : BitVec 6), let x := readV v a.toNat s
    let y := readV v b.toNat s
    let k := perLane x.tag
    let n (r : VReg) (e : Nat) := (fmtOfTag x.tag).decode (r.el k e)
    Clear (.vcmp v c d a b m) s → x.tag = y.tag → x.tag ∈ [1, 2, 3] →
    Claims.flagTrap k (readMask v m.toNat s) (fun e => Claims.floatConditionFlags c (n x e) (n y e)) s (exec (.vcmp v c d a b m) s)) ∧
  (∀ s v (d a : BitVec 6) (p : BitVec 2) (t : BitVec 4) (m : BitVec 3), let x := readV v a.toNat s
    let ns := perLane x.tag
    let nd := perLane t.toNat
    Clear (.vcvt v d a p t m) s → x.tag ∈ [1, 2, 3, 4, 5, 9, 10, 11] → t.toNat ∈ [1, 2, 3, 4, 5, 9, 10, 11] → p.toNat < max (nd / ns) (ns / nd) →
    (ns < nd → d.toNat < 16 ∧ ¬s.core.act.group.dests.contains (.v v d.toNat) ∧ s.core.act.resReady (.v v d.toNat) = true) →
    Claims.flagTrap nd (readMask v m.toNat s)
      (fun e => (Claims.converted s x.tag t.toNat p.toNat x (readV v d.toNat s) (e / nd) (e % nd)).2) s (exec (.vcvt v d a p t m) s)) ∧
  (∀ s v (d a : BitVec 6) (p f : BitVec 2), let x := readV v a.toNat s
    let blk (q : Nat) := quantBlock (blockW (6 + f.toNat)) (clipExp (s.core.act.hist v) (s.core.act.qpct.toNat % 2048) (qbaseOf s.core.act))
      ((List.range 16).map (fun i => fp32.decode (x.lane (16 * q + i)).toNat))
    Clear (.vqnt v d a p f) s → x.tag = 1 → p.toNat < f.toNat + 2 →
    Claims.flagTrap 1 (BitVec.allOnes 64) (fun l => (blk (l / 16)).2.2.2.getD (l % 16) 0) s (exec (.vqnt v d a p f) s)) ∧
  (∀ s v (d a : BitVec 6) (o m : BitVec 3), let x := readV v a.toNat s
    let k := perLane x.tag
    let mk := readMask v m.toNat s
    let step (e : Nat) := scanStep (fmtOfTag x.tag) o.toNat (32 / k) (Claims.scanBefore (fmtOfTag x.tag) o.toNat k x mk e) (x.el k e)
    Clear (.vscan v d a o m) s → o.toNat < 3 → x.tag ∈ [1, 2, 3] →
    Claims.flagTrap k mk (fun e => (step e).2) s (exec (.vscan v d a o m) s)) ∧
  (∀ s v (d a : BitVec 6) (o m : BitVec 3), let x := readV v a.toNat s
    let k := perLane x.tag
    let mk := readMask v m.toNat s
    Clear (.vreds v d a o m) s → x.tag ∈ [1, 2, 3] →
    (o = 1 ∨ o = 2 → Claims.flagTrap k mk (fun e => if ((fmtOfTag x.tag).decode (x.el k e)).isSnan then flNV else 0) s (exec (.vreds v d a o m) s)) ∧
    (o = 0 → ∀ f < 5, let fl := (Claims.addTree 8 (Claims.leaves x mk)).2
      bit s.core.act.fen f = true → bit fl f = true → (∀ g < f, bit s.core.act.fen g = true → bit fl g = false) →
      ∃ w : W64, exec (.vreds v d a o m) s = .next (trap (BitVec.ofNat 8 (0x40 + f)) w s) ∧
        ∀ l < 64, w.getLsbD l = true ↔ ∃ j i e, bit (Claims.nodeFlags x mk j i) f = true ∧ e < 64 * k ∧ e / k = l ∧ e / 2 ^ (j + 1) = i)) ∧
  (∀ fl L s, fl < 32 →
    (∀ j < 64, (flagged fl L s).core.act.stw.getLsbD j =
      (s.core.act.stw.getLsbD j || (decide (32 ≤ j) && decide (j < 37) && bit fl (j - 32)))) ∧
    modSlot (fun x => { x with extra := 0 }) (modAct (fun c => { c with stw := 0 }) (flagged fl L s)) =
      modSlot (fun x => { x with extra := 0 }) (modAct (fun c => { c with stw := 0 }) s))

/-- R81, R209: VHIST adds to each bin the enabled finite nonzero elements that fall in it, up to 2^32 − 1; VHCLR clears the bins, its .RD form
returns them and keeps them, and its .RDC form returns them and then clears them. -/
def Obligations.HistogramsCountExponents : Prop :=
  ∀ s v (d a : BitVec 6) (m : BitVec 3), (s.core.act.hist v).length = 64 →
    let x := readV v a.toNat s
    let base := s.core.act.qbase.toNat % 256
    let b := if base < 128 then (base : Int) else base - 256
    let n (i : Nat) := ((enabledElems (perLane x.tag) (readMask v m.toNat s)).filter (Claims.countsIn x b i)).length
    (Clear (.vhist v a m) s → x.tag ∈ [1, 2, 3] → ∃ h, exec (.vhist v a m) s =
        .next (modAct (fun c => (c.setHist v h).setHistReady v (s.core.cycle + 4)) s) ∧ h.length = 64 ∧
      ∀ i < 64, (h.getD i 0).toNat = min (((s.core.act.hist v).getD i 0).toNat + n i) 0xFFFFFFFF) ∧
    (Clear (.vhclr v) s → exec (.vhclr v) s = .next (modAct (Context.setHist v (List.replicate 64 0)) s)) ∧
    (Clear (.vhclrRd v d) s → ∃ t, exec (.vhclrRd v d) s = .next t ∧
      WroteVector v d.toNat (BitVec.allOnes 64) ⟨s.core.act.hist v, 11⟩ (some (s.core.cycle + 2)) s t) ∧
    (Clear (.vhclrRdc v d) s → ∃ t, exec (.vhclrRdc v d) s = .next (modAct (Context.setHist v (List.replicate 64 0)) t) ∧
      WroteVector v d.toNat (BitVec.allOnes 64) ⟨s.core.act.hist v, 11⟩ (some (s.core.cycle + 2)) s t)

/-- R82, R83, R210, R211: VQNT puts four quantised blocks in their part of the image and keeps the others of an image of that format;
VDQNT gives the values of 64 elements of a part. -/
def Obligations.QuantisationFillsAndReadsParts : Prop :=
  ∀ s v (d a : BitVec 6) (p f : BitVec 2) (m : BitVec 3), let x := readV v a.toNat s
    let mk := readMask v m.toNat s
    let tg := 6 + f.toNat
    let w := blockW tg
    let old := if (readV v d.toNat s).tag = tg then imageOf (readV v d.toNat s) else 0
    let blk (q : Nat) := quantBlock w (clipExp (s.core.act.hist v) (s.core.act.qpct.toNat % 2048) (qbaseOf s.core.act))
      ((List.range 16).map (fun i => fp32.decode (x.lane (16 * q + i)).toNat))
    let fl := ((List.range 4).flatMap (fun q => (blk q).2.2.2)).foldl (fun r y => r ||| y) 0
    (Clear (.vqnt v d a p f) s → x.tag = 1 → p.toNat < f.toNat + 2 → (∀ n < 5, bit s.core.act.fen n = true → bit fl n = false) →
      ∃ img t, exec (.vqnt v d a p f) s = .next t ∧ WroteVector v d.toNat (BitVec.allOnes 64) ⟨imageLanes img, tg⟩
          (some (s.core.cycle + (6 + Claims.crossing [a]))) (flagged fl (6 + Claims.crossing [a]) s) t ∧
        ∀ b < blocksOf tg, let n := fun (z : Nat) => (fld z (1024 + 16 * b) 8, fld z (1024 + 16 * b + 8) 8, fld z (16 * (w + 1) * b) (16 * (w + 1)))
          n img = if b / 4 = p.toNat then ((blk (b % 4)).1 % 256, (blk (b % 4)).2.1 % 256, (blk (b % 4)).2.2.1 % 2 ^ (16 * (w + 1))) else n old) ∧
    (Clear (.vdqnt v d a p m) s → x.tag = 6 ∨ x.tag = 7 ∨ x.tag = 8 → p.toNat < x.tag - 4 →
      (∀ q < 4, (∃ i < 16, mk.getLsbD (16 * q + i) = true) → fld (imageOf x) (1024 + 16 * (4 * p.toNat + q)) 8 ≠ 0xFF) →
      ∃ r t, exec (.vdqnt v d a p m) s = .next t ∧ r.tag = 1 ∧
        (∀ l < 64, r.lane l = BitVec.ofNat 32 (fp32.roundNum (imageElem x.tag (imageOf x) (64 * p.toNat + l))).1) ∧
        WroteVector v d.toNat mk r (some (s.core.cycle + (3 + Claims.crossing [a]))) s t)

/-- R208, R214: VTAG, VPERM and VBCAST.S. -/
def Obligations.TagsPermutationsAndBroadcasts : Prop :=
  ∀ s v (d a b : BitVec 6) (t : BitVec 4) (m : BitVec 3), let x := readV v a.toNat s
    let y := readV v b.toNat s
    let mk := readMask v m.toNat s
    (Clear (.vtag v d a t m) s → x.tag < 13 → t.toNat < 13 → ∃ u, exec (.vtag v d a t m) s = .next u ∧
      WroteVector v d.toNat mk ⟨x.lanes, t.toNat⟩ (some (s.core.cycle + (1 + Claims.crossing [a]))) s u) ∧
    (Clear (.vperm v d a b m) s → y.tag = 0 ∨ y.tag = 11 → x.tag < 13 → ∃ r u, exec (.vperm v d a b m) s = .next u ∧ r.tag = x.tag ∧
      (∀ l < 64, r.lane l = x.lane ((y.lane l).toNat % 64)) ∧
      WroteVector v d.toNat mk r (some (s.core.cycle + (3 + Claims.crossing [a, b]))) s u) ∧
    (Clear (.vbcastS v d a t) s → t.toNat < 13 → ∃ r u, exec (.vbcastS v d a t) s = .next u ∧ r.tag = t.toNat ∧
      (∀ l < 64, r.lane l = (readS a.toNat s).setWidth 32) ∧
      WroteVector v d.toNat (BitVec.allOnes 64) r (some (s.core.cycle + 2)) s u) ∧
    (∀ i, i = .vtag v d a t m ∧ x.tag < 13 ∨ i = .vbcastS v d a t → Clear i s → 13 ≤ t.toNat →
      exec i s = .next (trap 0x22 (BitVec.ofNat 64 (asWritten s d + t.toNat * 256)) s))

/-! ### Vector memory -/

namespace Sys2Proof.Claims

/-- The enabled lanes of a mask, ascending. -/
def lanes (m : BitVec 64) : List Nat := (List.range 64).filter (fun l => m.getLsbD l)

/-- R216: the mask of the lanes that LDV or STV of a tag accesses: of a block tag lanes 0 to 39. -/
def blockLanes (tag : Nat) (m : BitVec 64) : BitVec 64 := if tag = 6 ∨ tag = 7 ∨ tag = 8 then m &&& 0xFFFFFFFFFF#64 else m

/-- R93, R217: the lanes `ls` of a span at `base` lie in the home window, aligned. -/
def spanInHome (base : Nat) (ls : List Nat) (s : State) : Prop := s.lcn < Config.numCores ∧ base % 4 = 0 ∧ ∀ l ∈ ls, base + 4 * l + 4 ≤ 0x400000

/-- R217: the pieces of the enabled lanes of a span in the home window. -/
def spanOf (base : Nat) (ls : List Nat) (s : State) : List Piece :=
  spanPieces (homeSpan s (base + 4 * ls.headD 0) (4 * (ls.getLastD 0 - ls.headD 0 + 1))) (ls.headD 0) ls

/-- R217: the lanes of a gather or scatter lie in the home window, aligned. -/
def lanesInHome (addr : Nat → Nat) (ls : List Nat) (s : State) : Prop :=
  s.lcn < Config.numCores ∧ ∀ l ∈ ls, addr l % 4 = 0 ∧ addr l + 4 ≤ 0x400000

/-- R92, R93: lane `l` reads four bytes at an address of the home window. -/
def loaded (s : State) (a : Nat) : W32 := BitVec.ofNat 32 (fromBytes (readLocal s 0 (localOf (homeSpan s a 4).pa) 4))

/-- R217, R218: from `s` to `t` the lanes `ls` of `x` have been stored at home-window addresses; of two lanes at one address the higher
stands; every other byte reads as before. -/
def storedLanes (x : VReg) (ls : List Nat) (addr : Nat → Nat) (s t : State) : Prop :=
  (∀ l ∈ ls, (∀ j ∈ ls, l < j → addr j ≠ addr l) → ∀ i < 4,
    byteAt t 0 (localOf (homeSpan s (addr l) 4).pa + i) = BitVec.ofNat 8 ((x.lane l).toNat / 2 ^ (8 * i))) ∧
  ∀ a, (∀ l ∈ ls, ∀ i < 4, remapLocal s a ≠ remapLocal s (localOf (homeSpan s (addr l) 4).pa) + i) → byteAt t 0 a = byteAt s 0 a

/-- R219: the largest number of distinct 16-byte units that addresses touch in one of the 32 banks. -/
def bankConflicts (vas : List Nat) : Nat :=
  ((List.range 32).map (fun b => (((vas.map (fun a => a / 16)).eraseDups).filter (fun u => u % 32 == b)).length)).foldl max 0

end Sys2Proof.Claims

/-- R195, R216, R217, R219: LDV, LDVS and GATH of home-window lanes give each enabled lane its four bytes; a block tag's other lanes are
zeroed. -/
def Obligations.VectorLoadsFillTheEnabledLanes : Prop :=
  ∀ s v (d a b : BitVec 6) (t : BitVec 4) (m : BitVec 3),
    let mk := readMask v m.toNat s
    let acc := Claims.blockLanes t.toNat mk
    let base := (readS a.toNat s).toNat
    (Clear (.ldv v d a t m) s → t.toNat < 13 → Claims.spanInHome base (Claims.lanes acc) s → Claims.lanes acc ≠ [] →
      let ps := Claims.spanOf base (Claims.lanes acc) s
      Claims.mayGo false false false (BitVec.ofNat 64 (base + 4 * (Claims.lanes acc).headD 0)) ps .load s →
      ∃ r u, exec (.ldv v d a t m) s = .next u ∧ r.tag = t.toNat ∧
        (∀ l < 64, r.lane l = if acc.getLsbD l then Claims.loaded s (base + 4 * l) else 0) ∧
        WroteVector v d.toNat (if t.toNat = 6 ∨ t.toNat = 7 ∨ t.toNat = 8 then acc ||| ~~~0xFFFFFFFFFF#64 else mk) r (some (s.core.cycle + 6)) s u) ∧
    (Clear (.ldv v d a t m) s → t.toNat < 13 → Claims.lanes acc = [] → ∃ r u, exec (.ldv v d a t m) s = .next u ∧ r.tag = t.toNat ∧
      (∀ l < 64, r.lane l = 0) ∧
      WroteVector v d.toNat (if t.toNat = 6 ∨ t.toNat = 7 ∨ t.toNat = 8 then ~~~0xFFFFFFFFFF#64 else 0) r (some (s.core.cycle + 6)) s u) ∧
    (∀ i addr L, (i = .ldvs v d a b m ∧ L = 5 ∧ addr = (fun l => (readS a.toNat s + BitVec.ofNat 64 l * readS b.toNat s).toNat)) ∨
        (i = .gath v d a b m ∧ L = 5 + Claims.crossing [b] ∧ ((readV v b.toNat s).tag = 0 ∨ (readV v b.toNat s).tag = 11) ∧
          addr = (fun l => (readS a.toNat s + ((readV v b.toNat s).lane l).setWidth 64).toNat)) →
      Clear i s → Claims.lanesInHome addr (Claims.lanes mk) s → Claims.lanes mk ≠ [] →
      let vas := (Claims.lanes mk).map addr
      Claims.mayGo false false false (BitVec.ofNat 64 (vas.headD 0)) (vas.map (fun x => homeSpan s x 4)) .load s →
      ∃ r u, exec i s = .next u ∧ r.tag = 0 ∧ (∀ l < 64, mk.getLsbD l = true → r.lane l = Claims.loaded s (addr l)) ∧
        WroteVector v d.toNat mk r (some (s.core.cycle + (L + Claims.bankConflicts vas))) s u) ∧
    (∀ i L, (i = .ldvs v d a b m ∧ L = 5) ∨ (i = .gath v d a b m ∧ L = 5 + Claims.crossing [b] ∧ ((readV v b.toNat s).tag = 0 ∨ (readV v b.toNat s).tag = 11)) → Clear i s → mk = 0 →
      ∃ r u, exec i s = .next u ∧ r.tag = 0 ∧ WroteVector v d.toNat 0 r (some (s.core.cycle + L)) s u)

/-- R216, R217, R218: STV and SCAT store the enabled lanes of a register in the home window and change no other byte. -/
def Obligations.VectorStoresWriteTheEnabledLanes : Prop :=
  ∀ s v (d a b : BitVec 6) (m : BitVec 3), s.memOk = true →
    let mk := readMask v m.toNat s
    let base := (readS a.toNat s).toNat
    let x := readV v b.toNat s
    let y := readV v d.toNat s
    let acc := Claims.lanes (Claims.blockLanes x.tag mk)
    let addr := fun l => (readS a.toNat s + (x.lane l).setWidth 64).toNat
    (Clear (.stv v a b m) s → x.tag < 13 → acc ≠ [] → Claims.spanInHome base acc s → (∀ p ∈ Claims.spanOf base acc s, p.inMemory s) →
      Claims.mayGo false false false (BitVec.ofNat 64 (base + 4 * acc.headD 0)) (Claims.spanOf base acc s) (.store (laneBytes x acc)) s →
      ∃ t, exec (.stv v a b m) s = .next t ∧ Claims.storedLanes x acc (fun l => base + 4 * l) s t ∧ t.noMemory = s.noMemory ∧ t.memOk = true) ∧
    (Clear (.scat v d a b m) s → x.tag = 0 ∨ x.tag = 11 → y.tag < 13 → Claims.lanes mk ≠ [] → Claims.lanesInHome addr (Claims.lanes mk) s →
      (∀ l ∈ Claims.lanes mk, (homeSpan s (addr l) 4).inMemory s) →
      Claims.mayGo false false false (BitVec.ofNat 64 (((Claims.lanes mk).map addr).headD 0)) ((Claims.lanes mk).map (fun l => homeSpan s (addr l) 4))
        (.store (laneBytes y (Claims.lanes mk))) s →
      ∃ t, exec (.scat v d a b m) s = .next t ∧ Claims.storedLanes y (Claims.lanes mk) addr s t ∧ t.noMemory = s.noMemory ∧ t.memOk = true) ∧
    (∀ i, (i = .stv v a b m ∧ x.tag < 13 ∧ acc = []) ∨ (i = .scat v d a b m ∧ (x.tag = 0 ∨ x.tag = 11) ∧ y.tag < 13 ∧ Claims.lanes mk = []) →
      Clear i s → base + 1 ≤ 0x400000 → exec i s = .next s)

/-! ### Tiles -/

namespace Sys2Proof.Claims

/-- R72, R222: a tile of 32 rows of 128 data and 32 side bytes, whose ROWB lies within them. -/
def goodTile (t : Tile) : Prop := t.rows.length = 32 ∧ t.rowb ≤ 128 ∧ ∀ r ∈ t.rows, r.data.length = 128 ∧ r.side.length = 32

/-- R72: byte `j` of a vector register. -/
def laneByte (x : VReg) (j : Nat) : Byte := BitVec.ofNat 8 ((x.lane (j / 4)).toNat / 2 ^ (8 * (j % 4)))

/-- R225: from `s` to `t`, tile `d` has new rows, is dirty and WBUSY for `n` cycles; nothing else changes. -/
def wroteTile (d n : Nat) (rows : List TileRow) (s t : State) : Prop :=
  t = modTile d (fun w => { w with rows := rows, dirty := true, wbusy := some (s.core.cycle + n) }) s

/-- R228: the address of byte `b` of memory row `r`: unit by unit, bits 8 to 4 turned over by the rotation. -/
def rowAddress (base : Nat) (pitch : Int) (rot r b : Nat) : Nat :=
  (((base + r * pitch + 16 * (b / 16 : Nat)) % 2 ^ 64).toNat ^^^ (r * rot % 32 * 16)) + b % 16

/-- R228: the memory row `r` of a tile access, whose bytes lie in the home window. -/
def memoryRow (s : State) (base plan mrow r : Nat) : List Byte :=
  (List.range mrow).map (fun b =>
    byteAt s 0 (localOf (homeSpan s (rowAddress base (BitVec.ofNat 32 plan).toInt (plan / 2 ^ 32 % 32) r b) 1).pa))

/-- R228: the units of the rows of a tile access. -/
def tileUnits (base plan mrow : Nat) (rows : List Nat) : List (Nat × Nat) :=
  rows.flatMap (fun r => (List.range ((mrow + 15) / 16)).map (fun u =>
    (rowAddress base (BitVec.ofNat 32 plan).toInt (plan / 2 ^ 32 % 32) r (16 * u), min 16 (mrow - 16 * u))))

/-- R224: the rows of tile `d` that mask pair `n` makes active. -/
def tileRows (s : State) (d n : Nat) : List Nat :=
  (List.range 32).filter (fun i => (s.core.act.rwm.getD n 0).getLsbD i && decide (i < (tileAt s d).nrows))

/-- R229: the largest number of units in one bank. -/
def tileBanks (us : List (Nat × Nat)) : Nat := ((List.range 32).map (fun b => (us.filter (fun u => u.1 / 16 % 32 == b)).length)).foldl max 0

end Sys2Proof.Claims

/-- R221, R222, R224, R227, R352: TCFG, TCFG.RD, TZERO, TMSK and TMSK.RD, and their words. -/
def Obligations.TilesAreConfiguredAndMasked : Prop :=
  (∀ d a : BitVec 6, encode (.tcfg d a) = some (Claims.word 3 0x00 d.toNat a.toNat 0 0) ∧ encode (.tcfgRd d a) = some (Claims.word 3 0x00 d.toNat a.toNat 0 1) ∧
    encode (.tzero d) = some (Claims.word 3 0x01 d.toNat 0 0 0) ∧ encode (.tmsk d a) = some (Claims.word 3 0x08 d.toNat a.toNat 0 0) ∧
    encode (.tmskRd d a) = some (Claims.word 3 0x08 d.toNat a.toNat 0 1)) ∧
  ∀ s (d a : BitVec 6), let v := readS a.toNat s
    let n := d.toNat - 20
    let zero := List.replicate 32 (TileRow.mk (List.replicate 128 0) (List.replicate 32 0))
    (Clear (.tcfg d a) s → tcfgOk v.toNat = false → exec (.tcfg d a) s = .next (trap 0x48 v s)) ∧
    (Clear (.tcfg d a) s → tcfgOk v.toNat = true → exec (.tcfg d a) s = .next (modTile n (fun t =>
      if t.tc = v.setWidth 18 then { t with wbusy := some (s.core.cycle + 1) }
      else { t with rows := zero, dirty := true, wbusy := some (s.core.cycle + 1), tc := v.setWidth 18 }) s)) ∧
    (Clear (.tcfgRd d a) s → ∃ t, exec (.tcfgRd d a) s = .next t ∧ WroteScalar d.toNat ((tileAt s (a.toNat - 20)).tc.setWidth 64) 1 s t) ∧
    (Clear (.tzero d) s → (tileAt s d.toNat).nrows = 0 → exec (.tzero d) s = .next (trap 0x47 (BitVec.ofNat 64 d.toNat) s)) ∧
    (Clear (.tzero d) s → (tileAt s d.toNat).nrows ≠ 0 → ∃ t, exec (.tzero d) s = .next t ∧ Claims.wroteTile d.toNat 2 zero s t) ∧
    (Clear (.tmsk d a) s → exec (.tmsk d a) s = .next (modAct (fun c =>
      if d.toNat < 16 then { c with rwm := c.rwm.set (d.toNat - 12) (v.setWidth 32) }
      else { c with clm := c.clm.set (d.toNat - 16) (v.setWidth 32) }) s)) ∧
    (Clear (.tmskRd d a) s → ∃ t, exec (.tmskRd d a) s = .next t ∧ WroteScalar d.toNat
      ((if a.toNat < 16 then s.core.act.rwm.getD (a.toNat - 12) 0 else s.core.act.clm.getD (a.toNat - 16) 0).setWidth 64) 1 s t)

/-- R228, R229, R352: TLD of home-window units fills the active rows of a configured tile and keeps the others; TST makes the store of the
active rows, which performs when RBUSY has ended. -/
def Obligations.TileRowsMoveToAndFromMemory : Prop :=
  ∀ s (d a b : BitVec 6) (n : BitVec 2), Claims.goodTile (tileAt s d.toNat) → d.toNat < s.core.act.tiles.length →
    let t := tileAt s d.toNat
    let base := (readS a.toNat s).toNat
    let plan := (readS b.toNat s).toNat
    let rows := Claims.tileRows s d.toNat n.toNat
    let us := Claims.tileUnits base plan t.mrow rows
    let ps := us.map (fun u => homeSpan s u.1 u.2)
    t.nrows ≠ 0 → base % 16 = 0 → plan % 16 = 0 → us ≠ [] → s.lcn < Config.numCores → (∀ u ∈ us, u.1 + u.2 ≤ 0x400000) →
    (Clear (.tld d a b n) s → Claims.mayGo false false false (readS a.toNat s) ps .load s → ∃ u, exec (.tld d a b n) s = .next u ∧
      ∃ rs, u = modTile d.toNat (fun w => { w with rows := rs, dirty := true, wbusy := some (s.core.cycle + 4 + Claims.tileBanks us) }) s ∧
        rs.length = 32 ∧ ∀ r < 32, rs.getD r TileRow.zero =
          if r ∈ rows then t.fromMem (Claims.memoryRow s base plan t.mrow r) else t.row r) ∧
    (Clear (.tst d a b n) s → Reachable ps base (.store (rows.flatMap (fun r => t.toMem (t.row r)))) s →
      let cy := 4 + Claims.tileBanks us
      let x := mkAccess s s.core.slot.xb.toNat false false base ps (.store (rows.flatMap (fun r => t.toMem (t.row r)))) .none s.core.unit
      exec (.tst d a b n) s = .next (atTime (s.core.time + cy * s.core.unit) (.accessPerform s.nextId)
        { modTile d.toNat (Tile.reading (s.core.cycle + cy)) s with accesses := s.accesses ++ [x], nextId := s.nextId + 1 }))

/-- R230: TRWR, TRRD, TCWR and TCRD move one row, or one column of a format without blocks. -/
def Obligations.TileRowsAndColumnsMove : Prop :=
  ∀ s (d a b : BitVec 6), let n := (readS b.toNat s).toNat
    let x := readV .va a.toNat s
    let td := tileAt s d.toNat
    let ta := tileAt s a.toNat
    let zd := elemBytes td.fmt
    let za := elemBytes ta.fmt
    (Clear (.trwr d a b) s → Claims.goodTile td → x.lanes.length = 64 → x.tag = td.fmt ∨ x.tag = 0 → n < td.nrows → td.nrows ≤ 32 →
      ∃ rows t, exec (.trwr d a b) s = .next t ∧ Claims.wroteTile d.toNat 2 rows s t ∧ rows.length = 32 ∧
        (∀ r < 32, r ≠ n → rows.getD r TileRow.zero = td.row r) ∧
        (∀ j < 128, (rows.getD n TileRow.zero).data.getD j 0 = if j < td.rowb then Claims.laneByte x j else 0) ∧
        (∀ j < 32, (rows.getD n TileRow.zero).side.getD j 0 = if j < 2 * td.nb then Claims.laneByte x (128 + j) else 0)) ∧
    (Clear (.trrd d a b) s → Claims.goodTile ta → n < ta.nrows → ta.nrows ≤ 32 → ∃ r t, exec (.trrd d a b) s = .next t ∧
      r.tag = ta.fmt ∧ (∀ j < 256, Claims.laneByte r j = ((ta.row n).data ++ (ta.row n).side).getD j 0) ∧
      WroteVector .va d.toNat (BitVec.allOnes 64) r (some (s.core.cycle + 3)) (modTile a.toNat (Tile.reading (s.core.cycle + 3)) s) t) ∧
    (Clear (.tcwr d a b) s → Claims.goodTile td → x.lanes.length = 64 → x.tag = td.fmt ∨ x.tag = 0 → td.nrows ≠ 0 → td.nrows ≤ 32 →
      isBlock td.fmt = false → n < td.elems → ∃ rows t, exec (.tcwr d a b) s = .next t ∧ Claims.wroteTile d.toNat 2 rows s t ∧
        rows.length = 32 ∧ ∀ r < 32, (rows.getD r TileRow.zero).side = (td.row r).side ∧
          ∀ j < 128, (rows.getD r TileRow.zero).data.getD j 0 =
            if r < td.nrows ∧ zd * n ≤ j ∧ j < zd * n + zd then Claims.laneByte x (zd * r + (j - zd * n)) else (td.row r).data.getD j 0) ∧
    (Clear (.tcrd d a b) s → Claims.goodTile ta → ta.nrows ≠ 0 → ta.nrows ≤ 32 → isBlock ta.fmt = false → n < ta.elems →
      ∃ r t, exec (.tcrd d a b) s = .next t ∧ r.tag = ta.fmt ∧
        (∀ j < 256, Claims.laneByte r j = if j < za * ta.nrows then (ta.row (j / za)).data.getD (za * n + j % za) 0 else 0) ∧
        WroteVector .va d.toNat (BitVec.allOnes 64) r (some (s.core.cycle + 4)) (modTile a.toNat (Tile.reading (s.core.cycle + 4)) s) t)

/-! ### Matrix multiplication and accumulators -/

namespace Sys2Proof.Claims

/-- R80, R232: the exact floating terms of the word in column `j`: real products, or those of a real or an imaginary part. -/
def floatTerms (cx : Bool) (fa fb k x y j : Nat) : List (Option Machine.Num) :=
  let p (m n : Nat) := mulNum (elemNum fa x m) (elemNum fb y n)
  if cx = false then (List.range k).map (fun c => p c c)
  else if j % 2 = 0 then (List.range k).flatMap (fun c => [p (2 * c) (2 * c), (p (2 * c + 1) (2 * c + 1)).map Machine.Num.negate])
  else (List.range k).flatMap (fun c => [p (2 * c) (2 * c + 1), p (2 * c + 1) (2 * c)])

/-- R79, R232: the exact integer terms of the word in column `j`. -/
def intTerms (cx : Bool) (k x y j : Nat) : List Int :=
  let p (m n : Nat) : Int := elemInt x m * elemInt y n
  if cx = false then (List.range k).map (fun c => p c c)
  else if j % 2 = 0 then (List.range k).flatMap (fun c => [p (2 * c) (2 * c), -p (2 * c + 1) (2 * c + 1)])
  else (List.range k).flatMap (fun c => [p (2 * c) (2 * c + 1), p (2 * c + 1) (2 * c)])

/-- R78: group sums of 16 terms added one after the other in FP32. -/
def dotFloat (n : Nat) (z : Nat) (ts : List (Option Machine.Num)) : Nat :=
  (List.range n).foldl (fun r g => (fp32.addNum (fp32.decode r) (fp32.decode (groupSum 0 ((ts.drop (16 * g)).take 16)).1)).1) z

/-- R79: exact group sums of 16 terms added one after the other, clamped to 32 bits each time. -/
def dotInt (n : Nat) (z : Int) (ts : List Int) : Int :=
  (List.range n).foldl (fun r g => max (-2 ^ 31) (min (r + ((ts.drop (16 * g)).take 16).sum) (2 ^ 31 - 1))) z

/-- R231, R232: the instruction MMA, MMAC or MMAB. -/
def mmaForm : Instr → Option (Bool × Nat × Nat × Nat × Nat)
  | .mma d a b n => some (false, d.toNat, a.toNat, b.toNat, n.toNat)
  | .mmac d a b n => some (true, d.toNat, a.toNat, b.toNat, n.toNat)
  | .mmab d a b n => some (false, d.toNat, a.toNat, b.toNat, n.toNat)
  | _ => none

/-- R223: an accumulator of 32 rows of 32 words. -/
def goodAcc (a : Acc) : Prop := a.words.length = 32 ∧ (∀ r ∈ a.words, r.length = 32) ∧ a.len.length = 32 ∧ a.k ≤ 16 ∧ ∀ n ∈ a.len, n ≤ a.k

end Sys2Proof.Claims

/-- R226, R231, R234, R352, R357: an MMA-class instruction without a state cause runs once the rails stand at its level; an MMAB all of whose
rows are settled counts a skip there and does nothing else. -/
def Obligations.MatrixInstructionsRunOrSkip : Prop :=
  ∀ i s cx d a b n, Claims.mmaForm i = some (cx, d, a, b, n) → Clear i s → mmaState s cx d a b = none →
    ((∃ x y z m, i = .mmab x y z m) → skips s d a n = true →
      exec i s = .next (if levelOf s s.lcn = s.core.rail then modAct (fun c => { c with mskip := c.mskip + 1 }) s
        else stall (settleRails s.lcn s.core.time s))) ∧
    (((∃ x y z m, i = .mmab x y z m) → skips s d a n = false) → mmaBlocks s cx a b n = none →
      exec i s = .next (if levelOf s s.lcn = s.core.rail then runMma cx d a b n s else stall (settleRails s.lcn s.core.time s)))

/-- R78, R79, R80, R86, R224, R232: at F0 each active word of a plain accumulator becomes the dot product of its rows, added group by group of 16
terms; inactive words keep their bits; nothing but the accumulator, the tiles' busy bits and the record of the completion changes. At every level
above F0 the error that wrong terms add to a group sum stays below 2^G(F) grid units, whatever they are; at F0 there is none. -/
def Obligations.MatrixWordsAreDotProducts : Prop :=
  (∀ s cx d a b n, levelOf s s.lcn = 0 → (accAt s d).kind ≠ .ranked → Claims.goodAcc (accAt s d) → d - 8 < s.core.act.accs.length →
    let ta := tileAt s a
    let tb := tileAt s b
    let k := if cx = true ∧ ta.fmt ≠ 12 then ta.elems / 2 else ta.elems
    let groups := ((if cx = true then 2 * k else k) + 15) / 16
    let t := runMma cx d a b n s
    (∀ i < 32, ∀ j < 32, let x := (ta.row i).image
      let y := (tb.row (if cx = true then j / 2 else j)).image
      let old := (accAt s d).word i j
      (accAt t d).word i j = if (s.core.act.rwm.getD n 0).getLsbD i = true ∧ i < ta.nrows ∧ (s.core.act.clm.getD n 0).getLsbD j = true ∧
          (if cx = true then j / 2 else j) < tb.nrows then
        (if ta.fmt = 9 then (Claims.dotInt groups (BitVec.ofNat 32 old).toInt (Claims.intTerms cx k x y j) % 2 ^ 32).toNat
        else Claims.dotFloat groups old (Claims.floatTerms cx ta.fmt tb.fmt k x y j) % 2 ^ 32)
      else old) ∧
    modCore (fun c => { c with arrayFree := 0, act := { c.act with accs := [], tiles := [], completions := [] } }) { t with nextId := 0, free := 0 } =
      modCore (fun c => { c with arrayFree := 0, act := { c.act with accs := [], tiles := [], completions := [] } }) { s with nextId := 0, free := 0 }) ∧
  (∀ (int : Bool) (use : Nat), (wrongTerms 0 int use).1 = 0 ∧ (wrongTerms 1 int use).1.natAbs < 2 ^ 12 ∧ (wrongTerms 2 int use).1.natAbs < 2 ^ 18 ∧
    (wrongTerms 3 int use).1.natAbs < 2 ^ 22 ∧ (wrongTerms 1 true use).1 = 0)

/-- R223, R235: ACZ, ACRD, ACWR and ACCVT. -/
def Obligations.AccumulatorsAreClearedMovedAndConverted : Prop :=
  ∀ s (d a b : BitVec 6) (n : BitVec 2), let h := (readS b.toNat s).toNat
    let x := readV .va a.toNat s
    let zero := List.replicate 32 (List.replicate 32 (0 : W32))
    (∀ i k, (i = .aczF d ∧ k = AccKind.float) ∨ (i = .aczI d ∧ k = AccKind.int) → Clear i s → exec i s =
      .next (modAcc d.toNat (fun _ => ⟨k, 0, false, false, List.replicate 32 0, zero, some (s.core.cycle + 2), none, false, none⟩) s)) ∧
    (Clear (.acrd d a b) s → h < 16 → Claims.goodAcc (accAt s a.toNat) → ∃ r t, exec (.acrd d a b) s = .next t ∧
      r.tag = (match (accAt s a.toNat).kind with | .float => 1 | .int => 11 | .ranked => 0) ∧
      (∀ l < 64, (r.lane l).toNat = (accAt s a.toNat).word (2 * h + l / 32) (l % 32)) ∧
      WroteVector .va d.toNat (BitVec.allOnes 64) r (some (s.core.cycle + 4)) (modAcc a.toNat (Acc.reading (s.core.cycle + 4)) s) t) ∧
    (Clear (.acrd d a b) s → 16 ≤ h → exec (.acrd d a b) s = .next (trap 0x4B (BitVec.ofNat 64 h) s)) ∧
    (Clear (.acwr d a b) s → h < 16 → Claims.goodAcc (accAt s d.toNat) → x.lanes.length = 64 →
      ((accAt s d.toNat).kind = .float ∧ (x.tag = 1 ∨ x.tag = 0)) ∨ ((accAt s d.toNat).kind = .int ∧ (x.tag = 11 ∨ x.tag = 0)) →
      ∃ ws, exec (.acwr d a b) s = .next (modAcc d.toNat (fun c => { c with words := ws, wbusy := some (s.core.cycle + 2), mmaBusy := false }) s) ∧
        ∀ i < 32, ∀ j < 32, ((ws.getD i []).getD j 0).toNat =
          if i / 2 = h then (x.lane (32 * (i % 2) + j)).toNat else (accAt s d.toNat).word i j) ∧
    (Clear (.accvt d a n) s → (tileAt s d.toNat).nrows ≠ 0 → (tileAt s d.toNat).fmt ≠ 0 → (tileAt s d.toNat).fmt ≠ 12 → (accAt s a.toNat).kind ≠ .ranked →
      let t := tileAt s d.toNat
      let row (i : Nat) := cvtRow (accAt s a.toNat) t (s.core.act.clm.getD n.toNat 0).toNat (s.core.slot.xb.getLsbD 0) (s.core.slot.xb.getLsbD 1) i
      ∃ rows fl u, exec (.accvt d a n) s = .next u ∧ rows.length = 32 ∧
        (∀ i < 32, rows.getD i TileRow.zero = if (s.core.act.rwm.getD n.toNat 0).getLsbD i = true ∧ i < t.nrows then (row i).1 else t.row i) ∧
        fl = flagsOver (Claims.tileRows s d.toNat n.toNat) (fun i => (row i).2) ∧
        u = { modAct (fun c => { c with completions := c.completions ++ [⟨s.nextId, some (s.core.cycle + 12), BitVec.ofNat 5 fl, BitVec.ofNat 5 c.fen,
            BitVec.ofNat 18 c.here, 3, c.order, 0, 0, [], none⟩] }) (modTile d.toNat (fun w => { w with
              rows := rows, dirty := true, wbusy := some (s.core.cycle + 12) }) (modAcc a.toNat (Acc.reading (s.core.cycle + 8)) s)) with
          nextId := s.nextId + 1 })

/-! ### Ranked accumulators -/

namespace Sys2Proof.Claims

/-- R236: the list that offers of pairs, in their order, leave of an empty one. -/
def offered (int small : Bool) (k : Nat) (ps : List (Nat × Nat)) : List (Nat × Nat) :=
  ps.foldl (fun l p => offerPairs int small k p.1 p.2 l) []

/-- R238: the offers of RKINS: row, value and index of each enabled lane. -/
def laneOffers (m : BitVec 64) (x y : VReg) : List (Nat × Nat × Nat) :=
  ((List.range 64).filter (fun l => m.getLsbD l)).map (fun l => (l % 32, (x.lane l).toNat, (y.lane l).toNat))

/-- R238: the offers of RKACC: the active words of a plain accumulator, row by row. -/
def wordOffers (a : Acc) (rm cm : W32) (base : Nat) : List (Nat × Nat × Nat) :=
  ((List.range 32).filter (fun i => rm.getLsbD i)).flatMap (fun i =>
    ((List.range 32).filter (fun j => cm.getLsbD j)).map (fun j => (i, a.word i j, (base + j) % 2 ^ 32)))

/-- An accumulator after offers, WBUSY until a cycle. -/
def withOffers (os : List (Nat × Nat × Nat)) (until_ : Nat) (a : Acc) : Acc :=
  { os.foldl (fun c p => c.offer p.1 p.2.1 p.2.2) a with wbusy := some until_, mmaBusy := false }

/-- R223, R238: an accumulator as RKDECL leaves it. -/
def ranked (k : Nat) (dir vt : Bool) : Acc :=
  ⟨.ranked, k, dir, vt, List.replicate 32 0, List.replicate 32 (List.replicate 32 0), none, none, false, none⟩

/-- R344: the detail of 0x4A: the accumulator and its kind. -/
def kindDetail (s : State) (x : Nat) : W64 :=
  BitVec.ofNat 64 (x - 8 + 16 * (match (accAt s x).kind with | .float => 0 | .int => 1 | .ranked => 2))

/-- R240: accumulator `d` while an RKMERGE or RKLD has its image on the way under an access; the state in which the part has come. -/
def imageTaken (d : Nat) (x : Access) (s : State) : State := modAcc d (fun a => { a with wait := none }) (taken x s)

end Sys2Proof.Claims

/-- R236: the list of a row depends only on the set of pairs offered, in whatever order and however often they are offered. -/
def Obligations.RankedListsDependOnlyOnTheSetOffered : Prop :=
  ∀ (int small : Bool) (k : Nat) (ps qs : List (Nat × Nat)), (∀ p ∈ ps, p.1 < 2 ^ 32 ∧ p.2 < 2 ^ 32) → (∀ p, p ∈ ps ↔ p ∈ qs) →
    Claims.offered int small k ps = Claims.offered int small k qs

/-- R223, R236, R237, R238, R241, R352: RKDECL, RKREL, RKINS, RKACC, RKTH and RKLEN, and the kinds they need; an offer changes the list of its
row alone. -/
def Obligations.RankedAccumulatorsTakeOffersAndAreRead : Prop :=
  (∀ s (d a b : BitVec 6) (v r : BitVec 1) (k : BitVec 4) (m : BitVec 3) (n : BitVec 2),
    let c := accAt s d.toNat
    let x := readV .va a.toNat s
    let y := readV .va b.toNat s
    let src := accAt s a.toNat
    (Clear (.rkdecl d v k r) s → exec (.rkdecl d v k r) s = .next (modAcc d.toNat (fun _ =>
      { Claims.ranked (k.toNat + 1) (r == 1) (v == 1) with wbusy := some (s.core.cycle + 2) }) s)) ∧
    (Clear (.rkrel d) s → c.kind = .ranked → exec (.rkrel d) s = .next (modAcc d.toNat (fun _ =>
      { Claims.ranked 0 false false with kind := .float, wbusy := some (s.core.cycle + 2) }) s)) ∧
    (Clear (.rkins d a b m) s → c.kind = .ranked → x.tag = (if c.vt = true then 11 else 1) → y.tag = 0 ∨ y.tag = 11 →
      exec (.rkins d a b m) s = .next (modAcc d.toNat
        (Claims.withOffers (Claims.laneOffers (readMask (if a.toNat < 32 then .va else .vb) m.toNat s) x y) (s.core.cycle + 12)) s)) ∧
    (Clear (.rkacc d a n) s → c.kind = .ranked → a ≠ d → src.kind = (if c.vt = true then .int else .float) →
      exec (.rkacc d a n) s = .next (modAcc d.toNat
        (Claims.withOffers (Claims.wordOffers src (s.core.act.rwm.getD n.toNat 0) (s.core.act.clm.getD n.toNat 0)
          ((readS s.core.slot.xb.toNat s).toNat % 2 ^ 32)) (s.core.cycle + 40)) (modAcc a.toNat (Acc.reading (s.core.cycle + 40)) s))) ∧
    (Clear (.rkth d a) s → src.kind = .ranked → ∃ w t, exec (.rkth d a) s = .next t ∧ w.tag = (if src.vt = true then 11 else 1) ∧
      (∀ l < 64, w.lane l = if l < 32 then BitVec.ofNat 32 (if src.len.getD l 0 = src.k then ((src.pairs l).getD (src.k - 1) (0, 0)).1
        else if src.vt = true then (if src.dir = true then 0x7FFFFFFF else 0x80000000) else (if src.dir = true then 0x7F800000 else 0xFF800000)) else 0) ∧
      WroteVector .va d.toNat (BitVec.allOnes 64) w (some (s.core.cycle + 3)) (modAcc a.toNat (Acc.reading (s.core.cycle + 3)) s) t) ∧
    (Clear (.rklen d a) s → src.kind = .ranked → ∃ w t, exec (.rklen d a) s = .next t ∧ w.tag = 11 ∧
      (∀ l < 64, w.lane l = if l < 32 then BitVec.ofNat 32 (src.len.getD l 0) else 0) ∧
      WroteVector .va d.toNat (BitVec.allOnes 64) w (some (s.core.cycle + 3)) (modAcc a.toNat (Acc.reading (s.core.cycle + 3)) s) t) ∧
    (∀ i, i = .rkrel d ∨ i = .rkacc d a n ∨ i = .rkst d a n ∨ i = .rkmerge d a ∨ (i = .rkins d a b m ∧ (y.tag = 0 ∨ y.tag = 11)) →
      Clear i s → c.kind ≠ .ranked → exec i s = .next (trap 0x4A (Claims.kindDetail s d.toNat) s)) ∧
    (Clear (.rkacc d a n) s → c.kind = .ranked → a = d ∨ src.kind ≠ (if c.vt = true then .int else .float) →
      exec (.rkacc d a n) s = .next (trap 0x4A (Claims.kindDetail s a.toNat) s)) ∧
    (∀ i, i = .rkth d a ∨ i = .rklen d a → Clear i s → src.kind ≠ .ranked →
      exec i s = .next (trap 0x4A (Claims.kindDetail s a.toNat) s))) ∧
  (∀ (a : Acc) (i v x : Nat), Claims.goodAcc a → i < 32 → v < 2 ^ 32 → x < 2 ^ 32 →
    (a.offer i v x).pairs i = offerPairs a.vt a.dir a.k v x (a.pairs i) ∧ Claims.goodAcc (a.offer i v x) ∧
    (∀ j, j ≠ i → (a.offer i v x).pairs j = a.pairs j) ∧
    { a.offer i v x with len := [], words := [] } = { a with len := [], words := [] })

/-- R239, R240, R352, R373: RKST stores the image of the rows of its mask; RKMERGE and RKLD read a header, then the rest, check the whole, and
offer its pairs, RKLD to a list declared anew. -/
def Obligations.ListImagesAreStoredAndMerged : Prop :=
  ∀ s (d a : BitVec 6) (n : BitVec 2),
    let va := (readS a.toNat s).toNat
    let c := accAt s d.toNat
    let rows := (List.range 32).filter (fun i => (s.core.act.rwm.getD n.toNat 0).getLsbD i)
    let recs := rows.flatMap (fun i => toBytes 2 i ++ toBytes 2 (c.len.getD i 0) ++ toBytes 4 0 ++ (c.pairs i).flatMap (fun p => toBytes 4 p.1 ++ toBytes 4 p.2))
    let img := toBytes 1 c.k ++ toBytes 1 (b2n c.dir + 2 * b2n c.vt) ++ toBytes 1 rows.length ++ toBytes 1 0 ++ toBytes 4 (16 + recs.length) ++
      toBytes 8 0 ++ recs
    (Clear (.rkst d a n) s → c.kind = .ranked → s.memOk = true → let p := homeSpan s va img.length
      s.lcn < Config.numCores → va + img.length ≤ 0x400000 → va % 16 = 0 → p.inMemory s →
      Claims.mayGo false false false (readS a.toNat s) [p] (.store img) s → ∃ u t, StoredAt p img s u ∧ u.noMemory = s.noMemory ∧ u.memOk = true ∧
        t.mem = u.mem ∧ exec (.rkst d a n) s = .next t ∧ t.core = (modAcc d.toNat (Acc.reading (s.core.cycle + 4 + (img.length + 511) / 512)) s).core) ∧
    (∀ i load, (i = .rkld d a ∧ load = true) ∨ (i = .rkmerge d a ∧ load = false ∧ c.kind = .ranked) → Clear i s →
      (∀ p, s.core.act.wait = .none → xlate va 16 .read 16 s = .ok p → Reachable [p] va .load s → let u := touch va s
        exec i s = .next (imagePart d.toNat va (isHome va 16) p (answerUnits u (isHome va 16) 4 [p]) [] 0 u)) ∧
      (∀ x id, s.core.act.wait = .access id 0 → accessAt s id = some x → x.answered = true → x.failed = none →
        exec i s = imageRest load d.toNat va x.data (Claims.imageTaken d.toNat x s)) ∧
      (∀ x id, s.core.act.wait = .access id 1 → accessAt s id = some x → x.answered = true → x.failed = none →
        let u := Claims.imageTaken d.toNat x s
        let e := accAt u d.toNat
        let bad := imageFaults x.data (if load = true then none else some c)
        let ps := imagePairs x.data (leAt x.data 2 1) 16
        (∀ o ∈ bad, (∀ q ∈ bad, o ≤ q) → exec i s = .next (trap 0x4C (BitVec.ofNat 64 o) u)) ∧
        (bad = [] → exec i s = .next (modAcc d.toNat (fun _ => Claims.withOffers ps (s.core.cycle + (ps.length + 15) / 16 + 8)
          (if load = true then Claims.ranked (leAt x.data 0 1) ((leAt x.data 1 1).testBit 0) ((leAt x.data 1 1).testBit 1) else e)) u))))

/-! ### Copies -/

namespace Sys2Proof.Claims

/-- R253: the staging state of an engine changes. -/
def staged (e : Engine) (f : Staging → Staging) (s : State) : State :=
  modAct (fun c => match e with | .c0 => { c with staging0 := f c.staging0 } | .c1 => { c with staging1 := f c.staging1 }) s

/-- R113, R260: channel `h` of an engine: its place among the eight. -/
def channel (e : Engine) (h : BitVec 2) : Nat := match e with | .c0 => h.toNat | .c1 => 4 + h.toNat

/-- R255, R256, R260: the bytes counted for a channel start from 0. -/
def recounted (e : Engine) (h : BitVec 2) (s : State) : State := modAct (fun c => { c with copied := c.copied.set (channel e h) 0 }) s

/-- R256: the channel is bound. -/
def boundTo (e : Engine) (h : BitVec 2) (b : Binding) (s : State) : State :=
  recounted e h (staged e (fun g => { g with bind := g.bind.set h.toNat b }) s)

/-- The engine of the current core. -/
def engineOf (e : Engine) (s : State) : CopyEngine := match e with | .c0 => s.core.engine0 | .c1 => s.core.engine1

/-- The buffer of an engine of the current core changes. -/
def buffered (e : Engine) (l : List Command) (s : State) : State :=
  modCore (fun d => match e with
    | .c0 => { d with engine0 := { d.engine0 with buffer := l } }
    | .c1 => { d with engine1 := { d.engine1 with buffer := l } }) s

/-- R257: the command that CPY fires: a snapshot. -/
def snapshot (e : Engine) (h : BitVec 2) (acq rel : Bool) (z : BitVec 3) (tick : Nat) (s : State) : Command :=
  let g := match e with | .c0 => s.core.act.staging0 | .c1 => s.core.act.staging1
  ⟨s.nextId, s.core.act.tid, s.core.act.priv, g, h.toNat, g.bind.getD h.toNat .none, acq, rel, scopeOf z.toNat, s.core.slot.xb.toNat, tick,
    s.core.act.order⟩

/-- R260: the items of CQRY. -/
def queried (e : Engine) (h : BitVec 2) (i : BitVec 3) (s : State) : Nat :=
  let own (k : Command) : Bool := k.ch == h.toNat && k.taskid == s.core.act.tid
  let waiting := (engineOf e s).buffer.filter own
  match i with
  | 0 => (waiting.filter (fun k => decide (s.time / Config.unitsPerTick < k.tick))).length
  | 1 => if ∃ r ∈ (engineOf e s).running, own r.cmd = true then 1 else 0
  | 2 => s.core.act.copied.getD (channel e h) 0
  | 3 => match waiting with | [] => 2 ^ 64 - 1 | k :: _ => k.tick
  | _ => 32 - (engineOf e s).buffer.length

end Sys2Proof.Claims

/-- R254, R255, R256, R353: CDIM, CSET, CLAB, CWM and CSYNC set the staging state of their engine and the watermark and binding of a
channel, or trap. -/
def Obligations.CopiesAreStaged : Prop :=
  ∀ s (e : Engine) (a b : BitVec 6) (h : BitVec 2),
    let x := readS a.toNat s
    let y := readS b.toNat s
    (∀ l : BitVec 3, Clear (.cdim e l a b) s → let n := x.toNat % 2 ^ 32
      exec (.cdim e l a b) s = .next (
        if (if l = 0 then 1048576 else 65535) < n then trap 0x81 (BitVec.ofNat 64 n) s
        else Claims.staged e (fun g => if l = 0 then { g with n := g.n.set 0 n } else { g with
          n := g.n.set l.toNat n, ss := g.ss.set l.toNat (y.setWidth 32).toInt, ds := g.ds.set l.toNat (y.extractLsb' 32 32).toInt }) s)) ∧
    (∀ (t : BitVec 4) (f : BitVec 1), Clear (.cset e t a b f) s → exec (.cset e t a b f) s = .next (
      if 13 ≤ t.toNat then trap 0x81 (BitVec.ofNat 64 t.toNat) s
      else Claims.staged e (fun g => { g with src := x, dst := y, efmt := t.toNat, fill := f == 1 }) s)) ∧
    (∀ l : BitVec 8, Clear (.clab e l) s → exec (.clab e l) s = .next (Claims.staged e (fun g => { g with label := l }) s)) ∧
    (Clear (.cwm e h a b) s → exec (.cwm e h a b) s = .next (
      if x.toNat < y.toNat ∧ y.toNat ≤ 0x400000 ∧ x.toNat % 16 = 0 ∧ y.toNat % 16 = 0 then
        Claims.recounted e h (modAct (fun c => { c with
          marks := c.marks.set (Claims.channel e h) ⟨x.toNat / 16, y.toNat / 16, x.toNat / 16, true, []⟩ }) s)
      else trap 0x82 x s)) ∧
    (Clear (.cwmOff e h) s → exec (.cwmOff e h) s = .next (Claims.recounted e h (modAct (fun c => { c with
      marks := c.marks.set (Claims.channel e h) { c.marks.getD (Claims.channel e h) Watermark.reset with bound := false } }) s))) ∧
    (∀ i w, (i = .csync e h a ∧ w = Binding.sync x) ∨ (i = .csyncBs e h a ∧ w = Binding.slot x) → Clear i s →
      (x = 0 → exec i s = .next (Claims.boundTo e h .none s)) ∧
      (∀ p, x ≠ 0 → xlate x.toNat 16 .write 1 s = .ok p → exec i s = .next (
        if x.toNat % 16 = 0 ∧ regionOf (localOf p.pa) = .slice then Claims.boundTo e h w (touch x.toNat s) else trap 0x83 x s)))

/-- R257, R258, R259, R260, R263, R353: CPY puts a snapshot of the staging state into its engine's buffer of 32, in the order of issue ticks, or
stalls; CCAN withdraws; CQRY answers; CSEND puts a stream into the queue of four of its handle, where it runs once the handle is OPEN, stalls
while the queue is full, or traps. -/
def Obligations.CopiesAndStreamsAreQueued : Prop :=
  (∀ s (e : Engine) (a d : BitVec 6) (h : BitVec 2) (i z : BitVec 3) (r q : BitVec 1),
    let buf := (Claims.engineOf e s).buffer
    let tick := (readS a.toNat s).toNat
    (Clear (.cpy e r q h a z) s → 32 ≤ buf.length → exec (.cpy e r q h a z) s = .next (stall s)) ∧
    (∀ l m, Clear (.cpy e r q h a z) s → buf.length < 32 → s.lcn < Config.numCores → buf = l ++ m → (∀ k ∈ l, k.tick ≤ tick) →
      (∀ k ∈ m.head?, tick < k.tick) →
      let u := Claims.buffered e (l ++ Claims.snapshot e h (q == 1) (r == 1) z tick s :: m) { s with nextId := s.nextId + 1 }
      (tickNow s ≤ tick → exec (.cpy e r q h a z) s = .next (atTime (tick * Config.unitsPerTick) (.copyCommandStart s.lcn e) u)) ∧
      (tick < tickNow s → ∃ d ≤ (2 : Nat), exec (.cpy e r q h a z) s =
        .next (inTicks d (.copyCommandStart s.lcn e) { u with free := s.free + 1 }))) ∧
    (∀ v, (v = .ccan e h ∨ v = .ccanAll e h) → Clear v s → exec v s = .next (Claims.buffered e
      (buf.filter (fun k => !(k.taskid == s.core.act.tid && (decide (v = .ccanAll e h) || k.ch == h.toNat)))) s)) ∧
    (Clear (.cqry e d h i) s → ∃ t, exec (.cqry e d h i) s = .next t ∧
      WroteScalar d.toNat (BitVec.ofNat 64 (Claims.queried e h i s)) 2 s t)) ∧
  (∀ s (e : Engine) (r : BitVec 1) (h : BitVec 2) (a b : BitVec 6) (z : BitVec 3) p, Clear (.csend e r h a b z) s →
    let n := (readS a.toNat s).toNat % 8
    let len := (readS b.toNat s).toNat
    let v := s.core.act.handles.getD n Handle.free
    let g := match e with | .c0 => s.core.act.staging0 | .c1 => s.core.act.staging1
    xlate g.dst.toNat len .write 1 s = .ok p →
    let bad := len % 16 ≠ 0 ∨ 2 ^ 32 ≤ len ∨ v.st = .free ∨ v.st = .refused ∨ v.st = .lost ∨ inSlice s v.far p.pa len = false
    let m : Stream := ⟨g.src.toNat, p.pa, len, g.bind.getD h.toNat .none, e, h.toNat, r == 1, scopeOf z.toNat, s.core.slot.xb.toNat, 0,
      s.core.act.order, s.nextId⟩
    let u := modAct (fun c => { c with handles := c.handles.set n { v with streams := v.streams ++ [m] } })
      (touch g.dst.toNat { s with nextId := s.nextId + 1 })
    (bad → exec (.csend e r h a b z) s = .next (trap 0x88 (BitVec.ofNat 64 n) s)) ∧
    (¬bad → 4 ≤ v.streams.length → exec (.csend e r h a b z) s = .next (stall s)) ∧
    (¬bad → v.streams.length < 4 → exec (.csend e r h a b z) s =
      .next (if v.st = .pending then u else soon (.streamStart s.core.act.tid n) u)))


/-! ### Encoding, reset, and the step -/

/-- R122, R123, R139 to R144: an operation's word decodes to the operation, with every operand at every value of its field; a word that
decodes is the word of what it decodes to, so no two operations share a word and no bit is dropped; every row but the
happenings has words; the slots of a bundle are its four words, slot 0 in the lowest bits. -/
def Obligations.EncodingsAndDecodingsAgree : Prop :=
  (∀ y w, encodeSlot y = some w → decodeSlot w = .ok y) ∧
  (∀ w y, decodeSlot w = .ok y → encodeSlot y = some w) ∧
  (∀ i : Instr, i.isSlot = false ↔ ∃ h : Happening, h.instr = i) ∧
  (∀ w, decodeSlot w = .error .unit ↔ 6 ≤ slotUnit w) ∧
  ∀ w0 w1 w2 w3 : W32, [0, 1, 2, 3].map (slotWord (joinBundle w0 w1 w2 w3)) = [w0, w1, w2, w3]

namespace Sys2Proof.Claims

/-- R125, R127, R129, R159: the state in which slot `k` of the bundle at hand is executed: STW.SLOTRES names it, its extension is in
force, and the loop indices of a group that may begin with it are kept. -/
def begun (s : State) : State :=
  modAct (fun c => startGroup (c.putStw 0 2 s.core.slot.k)) (slotAt (fetchBundle s.core) s.core.slot.k s)

/-- The word of the slot at hand, and its extension byte. -/
def wordAt (s : State) : W32 := slotWord (fetchBundle s.core) s.core.slot.k

/-- R127. -/
def extAt (s : State) : ExtByte := bundleExt (fetchBundle s.core) s.core.slot.k

/-- R127, R131, R347: the guard predicate of the slot at hand is readable, and no slot of its group writes it. -/
def guardArrived (s : State) : Prop :=
  (extAt s).gsel = 0 ∨
    ((begun s).core.act.resReady (.p (extAt s).gsel.toNat) = true ∧ Res.p (extAt s).gsel.toNat ∉ (begun s).core.act.group.dests)

/-- R177, R346: the encoding fault of the slot at hand, as the iteration executes it. -/
def faultAt (y : Slot) (s : State) : Option (BitVec 8 × W64) := ownFault (begun s).core.act (repeated (begun s).core.act (wordAt s) y.op) y (begun s)

/-- R129, R177, R347: the slot at hand is one the iteration executes, and its group has room. -/
def inTurn (y : Slot) (s : State) : Prop :=
  repeatSkips (begun s).core.act (fetchBundle s.core) (wordAt s) = false ∧ groupTooLong (fetchBundle s.core) (begun s) = false ∧
    ((begun s).core.slot.repOff = 0 ∨ faultAt y s = none)

end Sys2Proof.Claims

open Sys2Proof.Claims in
/-- R122 to R127, R177, R346: a step inside a bundle executes the decoded operation of the slot at hand (stepped by a repeat) and goes
on as its end says; a NOP commits; a disabled slot without an encoding fault commits without effect but for its Trellis positions; words
that are no operation trap, as do a group open for too long and an iteration past v15. Otherwise a step performs the happening that is due, or the
turn of the core that comes first: at a bundle boundary with nothing pending, it issues the bundle at PC and executes its first slot.
The model's choice is the order of the turns and happenings of one time (assumption 3), that the reports of a tick are numbered before the tick is
left (assumption 45; R370 gives their order), and that a slot which an iteration leaves out ends no group (assumption 54). -/
def Obligations.AStepExecutesTheDecodedInstruction : Prop :=
  (∀ (s : State) (y : Slot), midBundle s = true → decodeSlot (wordAt s) = .ok y → isNop y.op = false → inTurn y s → guardArrived s →
    guardOn (extAt s) (begun s) = true → repeatRange (fetchBundle s.core) (begun s) = false →
    step s = finished (fetchBundle s.core) y (repeated (begun s).core.act (wordAt s) y.op)
      (exec (repeated (begun s).core.act (wordAt s) y.op) (begun s))) ∧
  (∀ (s : State) (y : Slot), midBundle s = true → decodeSlot (wordAt s) = .ok y → isNop y.op = false → inTurn y s → guardArrived s →
    guardOn (extAt s) (begun s) = true → faultAt y s = none → repeatRange (fetchBundle s.core) (begun s) = true →
    ∃ v, step s = .next (trap 0x23 v (begun s))) ∧
  (∀ (c : Context) (w : W32) (i : Instr), repeatAt c = none ∨ isVector w = false → repeated c w i = i) ∧
  (∀ (s : State) (y : Slot), midBundle s = true → decodeSlot (wordAt s) = .ok y → isNop y.op = false → inTurn y s → guardArrived s →
    guardOn (extAt s) (begun s) = false → faultAt y s = none →
    step s = .next (commitSlot (fetchBundle s.core) y (repeated (begun s).core.act (wordAt s) y.op) (disabledEffect y.op (begun s)))) ∧
  (∀ (s : State) (y : Slot) (x : BitVec 21), midBundle s = true → decodeSlot (wordAt s) = .ok y → y.op = .nop x → inTurn y s →
    step s = .next (commitSlot (fetchBundle s.core) y y.op (begun s))) ∧
  (∀ (x : BitVec 21) (s : State), exec (.nop x) s = .next s) ∧
  (∀ s : State, midBundle s = true → groupTooLong (fetchBundle s.core) (begun s) = true → (begun s).core.slot.hdr = true →
    step s = .next (tooLong (fetchBundle s.core) (begun s))) ∧
  (∀ s : State, midBundle s = true → repeatSkips (begun s).core.act (fetchBundle s.core) (wordAt s) = false →
    groupTooLong (fetchBundle s.core) (begun s) = false ∨ (begun s).core.slot.hdr = false →
    (decodeSlot (wordAt s) = .error .reserved → step s = .next (trap 0x05 ((wordAt s).setWidth 64) (begun s))) ∧
    (decodeSlot (wordAt s) = .error .unassigned → step s = .next (trap 0x04 ((wordAt s).setWidth 64) { begun s with happening := .unassignedOpcode }))) ∧
  (∀ (s : State) (t : Nat) (h : Happening), midBundle s = false → choose s = .event t h → heldBack s h = false →
    let u := { s with agenda := s.agenda.tail, time := max s.time t }
    ((∀ a v, h = .barcfgWrite a v → u.time % Config.unitsPerTick = 0) → step s = exec h.instr { journalled h u with happening := h }) ∧
    (∀ a v, h = .barcfgWrite a v → u.time % Config.unitsPerTick ≠ 0 → step s = .next (atTime ((tickNow u + 1) * Config.unitsPerTick) h u))) ∧
  (∀ (s u : State) (n t : Nat), midBundle s = false → choose s = .turn n t → u = { makeCurrent n s with time := max s.time t } →
    u.core.act.results = [] → u.core.act.completions = [] → u.core.swapReq = none → u.core.act.deferred = [] → u.core.act.drain = false →
    u.core.slot.issued = false → lineUnfilled u.core = false → bundleFault (fetchBundle u.core) = none →
    bundleReady (fetchBundle u.core) u.core.act.slotres u = true → energyStalls (bundleWeight u.core.act (fetchBundle u.core)) u = false →
    ∀ v, step (issue (fetchBundle u.core) u) = .next v → v.core.slot.ended = .committed → step s = .next v) ∧
  (∀ s : State, midBundle s = false → s.reports ≠ [] → (comesNext s).thisTick s = false → step s = .next (numberReports s)) ∧
  (∀ s : State, s.reports = [] ∨ (comesNext s).thisTick s = true → choose s = comesNext s)

/-- R28 to R30, R42, R84, R136, R138, R165, R167, R168, R221, R223, R273, R275, R277, R286, R294, R305, R340, R356, R376: the machine after reset
has every register the manual gives a reset value at that value.
The reset state meets the invariant of memory that every step keeps. -/
def Obligations.ResetLeavesTheStatedValues : Prop :=
  (
  let s := State.reset
  let c := s.core.act
  c.stw = 0xC4#64 ∧ c.tvec = 0x3F000#64 ∧ [c.epc, c.estw, c.cause, c.tval, c.macpc, c.micpc, c.ssp, c.sslim, c.sstop] = List.replicate 9 0#64 ∧
  c.qpct = 0x400#64 ∧ c.qbase = 0x80#64 ∧ [c.bundles, c.estall, c.mskip, c.dstall] = List.replicate 4 0#64 ∧ s.core.op = 6 ∧
  s.core.merr = List.replicate 3 (0, false) ∧ s.core.mgrp = List.replicate 3 0 ∧
  regRaw s 0 = 0x1004804B ∧ (∀ w < 18, regRaw s (0x100 + 8 * w) = 2 ^ 64 - 1) ∧
  (∀ q < 288, regRaw s (0x1000040 + q * 0x1000) = 8 + 2 ^ 8 + 0x1000000 * 2 ^ 16 ∧ regRaw s (0x1000070 + q * 0x1000) = 0x3F000 ∧
    regRaw s (0x1000200 + q * 0x1000) = 0x1010000) ∧
  (∀ d < 8, regRaw s (0x2000200 + d * 0x1000) = 0x124F80 + 2 ^ 32 ∧
    regRaw s (0x2200000 + d * 0x1000) = 16 + 16 * 2 ^ 8 + 32 * 2 ^ 16 + 8 * 2 ^ 24 + 8 * 2 ^ 32 + 128 * 2 ^ 40 ∧
    ∀ e < 8, regRaw s (0x2200100 + d * 0x1000 + 8 * e) = if d = e then 0 else 1) ∧
  regRaw s 0x2300000 = 0x960 + 4 * 2 ^ 16 + 4 * 2 ^ 24 + 0x400 * 2 ^ 32 ∧
  (∀ n < 1152, regRaw s (0x2400000 + n * 0x40) = 0x3C0 + 7 * 2 ^ 10 + 0x5F * 2 ^ 16 ∧ regRaw s (0x2400008 + n * 0x40) = 3) ∧
  regRaw s 0x2500018 = 1200 ∧ s.rack.inForce = 3000) ∧
  State.reset.memOk = true

/-- R27, R28: every step keeps memory in its one canonical form: addresses strictly rising, and no byte listed that reads as an unlisted
one does; so equal memories are equal data. (What an unlisted byte reads as is the model's choice, assumption 2.) -/
def Obligations.EveryStepKeepsMemoryCanonical : Prop :=
  ∀ s t : State, s.memOk = true → step s = .next t → t.memOk = true

namespace Sys2Proof.Claims

/-- The value of the slot being executed, as the detail of an encoding cause. -/
def slotValue (s : State) : W64 := (curWord s).setWidth 64

end Sys2Proof.Claims

open Sys2Proof.Claims in
/-- R128, R131, R342, R346, R347: an operation's encoding causes. A reserved field takes 0x05 with the slot's value, before all others; XB
where it has no use 0x06 with XB; reserved specifiers take 0x07 to 0x0A, a read of a destination of the group 0x0B, a privileged operation at
task privilege 0x0D with its OPC; an operation that the encoding admits, whose sources no slot of the group writes and whose privilege is
there, takes none, and then stalls until its sources and units are ready. A VCVT that keeps elements of its destination reads it too
(R207; that a disabled one does is the model's choice, assumption 56). -/
def Obligations.EncodingCausesAreTakenLowestFirst : Prop :=
  ∀ (i : Instr) (s : State), i.isSlot = true →
    (i.fieldsOk = false → exec i s = .next (trap 0x05 (slotValue s) s)) ∧
    (i.fieldsOk = true → xbReserved s.core.slot i = false → xbUse i = .none → s.core.slot.xb ≠ 0 → valueBad i s = false →
      exec i s = .next (trap 0x06 (s.core.slot.xb.setWidth 64) s)) ∧
    (∀ code v, slotFault i s = some (code, v) →
      (exec i s = .next (trap code v s) ∨ (0x05#8 < code ∧ valueBad i s = true ∧ exec i s = .next (trap 0x05 (slotValue s) s))) ∧
      0x05#8 ≤ code ∧ code ≤ 0x0E#8 ∧
      (i.wellFormed s.core.slot = true → code = 0x0B#8 ∨ code = 0x0D#8 ∨ (code = 0x08#8 ∧ ∃ p, kept i s = some p ∧ 16 ≤ p.2.toNat)) ∧
      (code = 0x0B#8 → (∃ o ∈ operands s.core.slot i, ∃ r ∈ o.reads, r ∈ s.core.act.group.dests) ∨
        ∃ p, kept i s = some p ∧ Res.v p.1 p.2.toNat ∈ s.core.act.group.dests) ∧
      (code = 0x0D#8 → v = BitVec.ofNat 64 (slotOpc (curWord s)) ∧ s.core.act.priv = false)) ∧
    (i.wellFormed s.core.slot = true → (∀ o ∈ operands s.core.slot i, ∀ r ∈ o.reads, r ∉ s.core.act.group.dests) →
      (∀ p, kept i s = some p → p.2.toNat < 16 ∧ Res.v p.1 p.2.toNat ∉ s.core.act.group.dests) →
      s.core.act.priv = true ∨ privileged s.core.slot i = false →
      slotFault i s = none ∧ (ready i s = false → exec i s = .next (stall s)) ∧
      (ready i s = true → valueBad i s = true → exec i s = .next (trap 0x05 (slotValue s) s))) ∧
    (i.wellFormed s.core.slot = true → s.core.act.group.dests = [] → s.core.act.priv = false → privileged s.core.slot i = true →
      exec i s = .next (trap 0x0D (BitVec.ofNat 64 (slotOpc (curWord s))) s))

/-! ### Happenings: kiosks -/

namespace Sys2Proof.Claims

/-- The state in which a happening is performed. -/
def performing (h : Happening) (s : State) : Prop := s.happening = h

/-- R34, R38: the task that kiosk `q` makes of a descriptor: its identifier from the kiosk's number and acceptance sequence, the tick, and
the default budget where the descriptor gives none. -/
def newTask (s : State) (q : Nat) (bs : List Byte) : Task :=
  let d := parseDescriptor bs
  let b := if d.budget = 0 then regRaw s (0x1000040 + q * 0x1000) / 2 ^ 16 % 2 ^ 48 else d.budget
  ⟨q * 2 ^ 23 + (kioskAt s q).seq, { d with budget := b }, s.time / 315, q, 0, PreloadList.empty, none, b, 0, false⟩

/-- R49: an entry in a band has waited more than 2^20 ticks there. -/
def overdue (s : State) (e : Entry) : Prop := e.band < 3 ∧ e.since + 2 ^ 20 + 1 ≤ s.time / 315 + e.waited

/-- R38, R45, R46: the entry that kiosk `q` makes of a descriptor. -/
def newEntry (s : State) (q : Nat) (bs : List Byte) : Entry :=
  ⟨newTask s q bs, (parseDescriptor bs).band, s.time / 315, 0, none, false⟩

/-- R22, R359: band `b` of kiosk `q` has a place, where the overrun entry of task `t` gives its own up. -/
def hasPlace (s : State) (q b t : Nat) : Prop :=
  ((kioskAt s q).band b).length + ((kioskAt s q).overrun.filter (fun y => y.task.desc.band == b && y.task.taskid != t)).length < 256

/-- R55: no swap of core `n` is in its cycles 1 to 24. -/
def notSwapping (s : State) (n : Nat) : Prop := ∀ c, (coreAt s n).leaving ≠ .swap c

/-- R48: the task in the shadow bank of core `n` gives way to a newly accepted entry `e` of kiosk `q`: it has not entered the active bank, its
entry `p` is of a lower band, and `e` admits the core. -/
def givesWay (s : State) (q : Nat) (e : Entry) (n : Nat) (p : Preload) : Prop :=
  (coreAt s n).shadow = .loaded ∧ notSwapping s n ∧ e.admits s q n = true ∧ p.entry.band < e.band ∧
    (coreAt s n).preloads.find? (fun x => (coreAt s n).shd.isTask x.entry.task.taskid) = some p

/-- R46: from `s` to `t`, entry `e` has gone into band `b` of kiosk `q` somewhere among those that stood there. -/
def enteredBand (q b : Nat) (e : Entry) (s t : State) : Prop :=
  ∃ l r, (kioskAt s q).band b = l ++ r ∧ (kioskAt t q).band b = l ++ e :: r

end Sys2Proof.Claims

open Sys2Proof.Claims in
/-- R37 to R49, R348: a delivered descriptor of no earlier source's turn is accepted into its band with the next identifier, noted in KLASTID, kept
as a copy; a bad one of the host is recorded with 0x8C and nothing else; one that meets a full band comes again a tick later (the model's
choice, assumption 34). A shadow task of a lower band that has not entered the active bank gives way to it and goes back to its band with the
waiting time it had. A KPORT write is forwarded to the named kiosk within the bound, or waits behind the die's ingress. Selection leaves no core
with a free shadow bank, no swap in its cycles 1 to 24 and no migration coming to it that a waiting entry admits, and serves the core after the
last one with the first admitting entry, highest band first; it does nothing while dispatch is paused. An entry ages into the next band after
2^20 ticks and not before. -/
def Obligations.KiosksAcceptSelectAndAge : Prop :=
  (∀ (s : State) (q : Nat) (src : TaskSource) (bs : List Byte), performing (.taskAcceptance q src bs) s → q < 288 →
    earlierAccept s q (sourceRank src) = none → refusedAt s src bs = none → (kioskAt s q).bands.length = 4 →
    (kioskAt s q).used (parseDescriptor bs).band < 256 → (newEntry s q bs).dispatchable s q = true →
    (∀ i < 4, ∀ p ∈ (coreAt s (q * 4 + i)).preloads, (coreAt s (q * 4 + i)).shadow = .loaded → notSwapping s (q * 4 + i) →
      (newEntry s q bs).admits s q (q * 4 + i) = true → (coreAt s (q * 4 + i)).shd.isTask p.entry.task.taskid = true →
      (parseDescriptor bs).band ≤ p.entry.band) →
    ∃ t, exec .taskAcceptance s = .next t ∧
      enteredBand q (parseDescriptor bs).band (newEntry s q bs) s t ∧
      (∀ b, b ≠ (parseDescriptor bs).band → (kioskAt t q).band b = (kioskAt s q).band b) ∧
      (kioskAt t q).seq = ((kioskAt s q).seq + 1) % 2 ^ 23 ∧ (kioskAt t q).copies = (kioskAt s q).copies ++ [newTask s q bs] ∧
      (∀ p, src = .host p → regRaw t (0x1000058 + p * 0x1000) = (newTask s q bs).taskid % 2 ^ 64) ∧ t.mem = s.mem ∧ t.core = s.core) ∧
  (∀ (s : State) (q i : Nat) (src : TaskSource) (bs : List Byte) (p : Preload), performing (.taskAcceptance q src bs) s → q < 288 → i < 4 →
    earlierAccept s q (sourceRank src) = none → refusedAt s src bs = none → (kioskAt s q).bands.length = 4 →
    (kioskAt s q).used (parseDescriptor bs).band < 256 → (kioskAt s q).used p.entry.band < 256 →
    (newEntry s q bs).dispatchable s q = true → p.entry.dispatchable s q = true →
    givesWay s q (newEntry s q bs) (q * 4 + i) p → (∀ j < 4, j ≠ i → (coreAt s (q * 4 + j)).shadow = .free) →
    ∃ t, exec .taskAcceptance s = .next t ∧ newEntry s q bs ∈ (kioskAt t q).band (parseDescriptor bs).band ∧
      (coreAt t (q * 4 + i)).shadow = .free ∧
      (∀ x ∈ (coreAt t (q * 4 + i)).preloads, x.entry.task.taskid ≠ p.entry.task.taskid) ∧
      (∃ x ∈ (kioskAt t q).band p.entry.band, x.task = p.entry.task ∧ x.since = s.time / 315 ∧ x.waited = p.entry.waited ∧
        x.saved.isSome = p.entry.saved.isSome) ∧
      (∃ w, w / 315 = s.time / 315 ∧ (w, Happening.kioskSelect q) ∈ t.agenda)) ∧
  (∀ (s : State) (q : Nat) (src : TaskSource) (bs : List Byte), performing (.taskAcceptance q src bs) s → q < 288 →
    (∀ w, earlierAccept s q (sourceRank src) = some w → exec .taskAcceptance s = .next (atTime w (.taskAcceptance q src bs) s)) ∧
    (earlierAccept s q (sourceRank src) = none → refusedAt s src bs = none → 256 ≤ (kioskAt s q).used (parseDescriptor bs).band →
      exec .taskAcceptance s = .next (inTicks 1 (.taskAcceptance q src bs) s))) ∧
  (∀ (s : State) (q p o : Nat) (bs : List Byte), performing (.taskAcceptance q (.host p) bs) s → q < 288 →
    earlierAccept s q (sourceRank (.host p)) = none → descriptorBad s bs = some o →
    exec .taskAcceptance s = .next (record {
      area := 5, cause := 0x8C, asid := some (parseDescriptor bs).asid, ifc := ifcOfQuad s p, addr := 0x1000000 + p * 0x1000, tval := o } s)) ∧
  (∀ (s : State) (q : Nat) (bs : List Byte), performing (.kportWrite q bs) s → q < 288 → s.hostPort = [] → (ingressAt s (q / 36)).entries = [] →
    homeKiosk q (parseDescriptor bs) < 288 →
    ∃ d ≤ acceptBound q (homeKiosk q (parseDescriptor bs)), exec .kportWrite s =
      .next (inTicks d (.taskAcceptance (homeKiosk q (parseDescriptor bs)) (.host q) bs) { s with free := s.free + 1 })) ∧
  (∀ (s : State) (q : Nat) (bs : List Byte), performing (.kportWrite q bs) s → q < 288 → s.hostPort = [] → (ingressAt s (q / 36)).entries ≠ [] →
    ∃ t, exec .kportWrite s = .next t ∧ t.kiosks = s.kiosks ∧
      (ingressAt t (q / 36)).waiting = (ingressAt s (q / 36)).waiting ++
        [⟨0, 0, 0, some q, bs, (ingressAt s (q / 36)).entries.length, s.time / 315⟩]) ∧
  (∀ (s : State) (q : Nat), performing (.kioskSelect q) s → q < 288 → (kioskAt s q).bands.length = 4 →
    (dispatchPaused s = true → exec .kioskSelect s = .next s) ∧
    (dispatchPaused s = false → ∃ t, exec .kioskSelect s = .next t ∧
      ∀ i < 4, (coreAt t (q * 4 + i)).shadow = .free → notSwapping t (q * 4 + i) → available t (q * 4 + i) = true →
        Machine.reserved t (q * 4 + i) = false →
        ∀ b < 4, ∀ e ∈ (kioskAt t q).band b, e.admits t q (q * 4 + i) = false)) ∧
  (∀ (s : State) (q n : Nat) (e : Entry) (l r : List Entry), performing (.kioskSelect q) s → q < 288 → dispatchPaused s = false →
    n = q * 4 + ((kioskAt s q).rr + 1) % 4 → (coreAt s n).shadow = .free → notSwapping s n → available s n = true →
    Machine.reserved s n = false →
    [3, 2, 1, 0].flatMap (fun b => (kioskAt s q).band b) = l ++ e :: r → (∀ x ∈ l, x.admits s q n = false) → e.admits s q n = true →
    ∃ t, exec .kioskSelect s = .next t ∧ (coreAt t n).shadow = .loaded ∧ (coreAt t n).shd.tid = e.task.taskid ∧
      ∀ b < 4, ∀ x ∈ (kioskAt t q).band b, x.task.taskid ≠ e.task.taskid) ∧
  (∀ (s : State) (q t : Nat) (e : Entry), performing (.entryAging q t) s → q < 288 → (kioskAt s q).waitingEntry t = some e →
    (kioskAt s q).bands.length = 4 →
    (overdue s e → e.dispatchable s q = true → (kioskAt s q).used (e.band + 1) < 256 → ∃ u, exec .entryAging s = .next u ∧
      { e with band := e.band + 1, since := s.time / 315, waited := 0 } ∈ (kioskAt u q).band (e.band + 1) ∧
      (∀ b, ∀ x ∈ (kioskAt s q).band b, x.task.taskid ≠ t → x ∈ (kioskAt u q).band b) ∧
      ∀ b, b ≠ e.band + 1 → ∀ x ∈ (kioskAt u q).band b, x.task.taskid ≠ t) ∧
    (¬ overdue s e → exec .entryAging s = .next s))

open Sys2Proof.Claims in
/-- R49, R52: kiosks sample their depths every 4,096 ticks once aging is done, decide 256 ticks later on the samples alone, and send at most half
the difference and no more than fits, the youngest movable entries, to the shallowest neighbour; nothing moves where no difference passes
BALTHR; moved entries keep identifier, acceptance tick and waiting time. R360: KACT adds budget to an overrun entry and makes it
resumable, ends a task with 0x8F wherever it is held (one that waits in a band by its join update alone), or starts an overrun task again at the
head of its band, with its save slot free from then (the model's choice, assumption 34); it does nothing to a task the kiosk does not hold. -/
def Obligations.KiosksBalanceAndObeyTheRuntime : Prop :=
  (∀ s : State, performing .balanceSample s → (∀ k ∈ s.kiosks, ∀ b ∈ k.2.bands, ∀ e ∈ b, ¬ overdue s e) →
    exec .balanceSample s = .next (inTicks 4096 .balanceSample (atTime ((s.time / 315 + 257) * 315 - 1) .balanceDecide { s with kiosks := s.kiosks.map (fun k => (k.1,
      { k.2 with
        samples := if (regRaw s (0x1000040 + k.1 * 0x1000)) / 2 ^ 8 % 2 = 1 then k.2.bands.map List.length else []
        spaces := [0, 1, 2, 3].map (fun b => 256 - ((k.2.band b).length + (k.2.overrun.filter (fun e => e.task.desc.band == b)).length)) })) }))) ∧
  (∀ s : State, performing .balanceDecide s →
    (∀ k ∈ s.kiosks, ∀ b v y, sampled s k.1 b = some v → shallowest s k.1 b = some y → v ≤ y.2 + balanceThreshold s k.1) →
    exec .balanceDecide s = .next s) ∧
  (∀ (s : State) (q b v : Nat) (y : Nat × Nat) (k : Kiosk), performing .balanceDecide s → s.kiosks = [(q, k)] → y.1 ≠ q → b < 4 →
    sampled s q b = some v → shallowest s q b = some y → y.2 + balanceThreshold s q < v → (sends s 35 y.1 b).1 = 0 →
    (∀ c < 4, c ≠ b → sampled s q c = some 0) →
    ∃ t, exec .balanceDecide s = .next t ∧
      (kioskAt t y.1).arriving = (kioskAt s y.1).arriving ++
        ((((k.band b).filter (fun e => e.task.desc.affk == 0 && e.saved.isNone)).reverse).take
          (min ((v - y.2) / 2) ((kioskAt s y.1).spaces.getD b 0)))) ∧
  (∀ (s : State) (q : Nat), performing (.balanceArrival q) s → q < 288 → (kioskAt s q).bands.length = 4 →
    (∀ e ∈ (kioskAt s q).arriving, e.dispatchable s q = true) →
    (∀ b < 4, (kioskAt s q).used b + ((kioskAt s q).arriving.filter (fun e => e.band == b)).length ≤ 256) →
    ∃ t, exec .balanceArrival s = .next t ∧ (kioskAt t q).arriving = [] ∧
      ∀ e ∈ (kioskAt s q).arriving, e.band < 4 → { e with task := { e.task with quad := q } } ∈ (kioskAt t q).band e.band) ∧
  (∀ (s : State) (q t : Nat) (a : BitVec 30) (e : Entry), performing (.kactAddBudget q t a) s → q < 288 → (kioskAt s q).overrunEntry t = some e →
    (kioskAt s q).bands.length = 4 → e.band < 4 → e.dispatchable s q = true → hasPlace s q e.band t →
    ∃ u x, exec .kactAddBudget s = .next u ∧ x ∈ (kioskAt u q).band e.band ∧
      x.task = { e.task with budget := e.task.budget + a.toNat * 256 } ∧ x.saved.isSome = e.saved.isSome ∧
      (∀ y ∈ (kioskAt u q).overrun, y.task.taskid ≠ t) ∧ u.mem = s.mem) ∧
  (∀ (s : State) (q t : Nat) (a : BitVec 30), performing (.kactAddBudget q t a) s → q < 288 → (kioskAt s q).overrunEntry t = none →
    exec .kactAddBudget s = .next s) ∧
  (∀ (s : State) (q t n : Nat) (d : Core), performing (.kactKill q t) s → q < 288 → (kioskAt s q).waitingEntry t = none →
    (kioskAt s q).overrunEntry t = none → (allCores s).find? (fun d => d.2.act.heldBy q t) = some (n, d) → d.act.ending = none →
    d.swapReq ≠ some .exited →
    exec .kactKill s = .next (endContext 0x8F 0 (makeCurrent n s).core.act.slotres false (makeCurrent n s))) ∧
  (∀ (s : State) (q t : Nat) (e : Entry), performing (.kactKill q t) s → q < 288 → (kioskAt s q).waitingEntry t = some e →
    e.saved = none →
    ∃ u, exec .kactKill s = .next u ∧ (∀ b, ∀ x ∈ (kioskAt u q).band b, x.task.taskid ≠ t) ∧
      (∃ w, (w, Happening.failedJoinUpdate (e.task.quad * 4) e.task.taskid 0x8F) ∈ u.agenda) ∧ u.reports = s.reports) ∧
  (∀ (s : State) (q t : Nat), performing (.kactKill q t) s → q < 288 → (kioskAt s q).waitingEntry t = none → (kioskAt s q).overrunEntry t = none →
    (∀ d ∈ allCores s, d.2.act.heldBy q t = false ∧ (d.2.shadow = .free ∨ d.2.shd.heldBy q t = false)) → exec .kactKill s = .next s) ∧
  (∀ (s : State) (q t : Nat) (e : Entry), performing (.kactRerun q t) s → q < 288 → (kioskAt s q).overrunEntry t = some e →
    (kioskAt s q).bands.length = 4 → e.band < 4 → { e with saved := none }.dispatchable s q = true → hasPlace s q e.band t →
    ∃ u x, exec .kactRerun s = .next u ∧ (kioskAt u q).band e.band = x :: (kioskAt s q).band e.band ∧ x.saved = none ∧
      x.task.taskid = e.task.taskid ∧ x.task.budget = e.task.desc.budget ∧ x.task.slot = none ∧
      (∀ y ∈ (kioskAt u q).overrun, y.task.taskid ≠ t)) ∧
  (∀ (s : State) (q t : Nat), performing (.kactRerun q t) s → q < 288 → (kioskAt s q).overrunEntry t = none → exec .kactRerun s = .next s)

/-! ### Happenings: banks and endings -/

namespace Sys2Proof.Claims

/-- R61, R363: COUNT, TARGET, FAILS, FCAUSE, the reserved byte and FSTAT of a join word. -/
def joinFields (w : List Byte) : List Nat := [leAt w 0 4, leAt w 4 4, leAt w 8 4, leAt w 12 1, leAt w 13 1, leAt w 14 2]

/-- R61, R363: COUNT rises by one; a failure raises FAILS, and the first one leaves its cause and status. -/
def joinAfter (w v : List Byte) (failed : Bool) (cause status : Nat) : Prop :=
  v.length = 16 ∧ joinFields v = [(leAt w 0 4 + 1) % 2 ^ 32, leAt w 4 4, if failed then (leAt w 8 4 + 1) % 2 ^ 32 else leAt w 8 4,
    if failed ∧ leAt w 12 1 = 0xFF then cause else leAt w 12 1, leAt w 13 1,
    if failed ∧ leAt w 12 1 = 0xFF then status else leAt w 14 2]

/-- R61, R363: the join word of a task in context `c` on core `n` is at `p`: in this package, as an atomic at task privilege reaches it. -/
def joinWordAt (s : State) (n : Nat) (c : Context) (p : Piece) : Prop :=
  ∃ t, c.task = some t ∧ t.desc.joinp ≠ 0 ∧ translate s n (c.putStw 2 1 0) t.desc.joinp.toNat 16 .atomic 16 = .ok p ∧
    pkgOf p.pa = pkgId s ∧ inMotion s (localOf p.pa) p.len = false ∧ memStop s .retire [p] t.desc.joinp.toNat = none ∧ (readLocal s p.key (localOf p.pa) 16).length = 16

/-- R55 to R58: the context of core `n` can leave: its swap is not a migration, and it has a place to be saved. -/
def mayLeaveBank (s : State) (n : Nat) : Prop :=
  (coreAt s n).act.task.any (hasSlot s) = true ∧ ((coreAt s n).shadow = .free ∨ (coreAt s n).shadow = .loaded)

/-- R44, R375: the save slot of a task that core `n` spills lies in this package, where it can be written now. -/
def slotHere (s : State) (n : Nat) (t : Task) : Prop :=
  ∀ q i, t.slot = some (q, i) → pkgOf (slotBase s q i) = pkgId s ∧
    inMotion s (localOf (slotBase s q i)) ((spillBytes (coreAt s n).shd + 63) / 64 * 64) = false

/-- R168, R335: the bundle of a core has been issued and waits at the slot at which it issued. -/
abbrev waitsAtFirst (d : Core) : Prop := d.slot.issued = true ∧ d.slot.ended = .stalled ∧ d.slot.k = d.slot.first

/-- R335, R342: `x` is the pending trap of the earliest instruction, the one of lowest code of it. -/
def earliest (x : Deferred) (l : List Deferred) : Prop :=
  x ∈ l ∧ ∀ y ∈ l, y = x ∨ x.order < y.order ∨ (x.order = y.order ∧ x.code < y.code)

end Sys2Proof.Claims

open Sys2Proof.Claims in
/-- R61, R335, R342, R358, R359, R363: TEXIT and endings update the join word; one whose translation fails is recorded with AREA 0 and ADDR JOINP;
an ending waits for what is in flight, then the core swaps as after TEXIT; an ended context gives back its commands, subscriptions, lease and
remap entry, is recorded, and its join update follows; an exhausted budget asks for the overrun swap with a record of 0x8E, or ends the
context with 0xB7; a lost context runs again once, then ends with 0x90; the earliest deferred trap is taken, at a bundle boundary or where
the first slot that the bundle executes still waits; a bundle that waits so is not counted (that a cause is taken at a slot that waits, where
R335 speaks of the next bundle boundary, is the model's choice, assumption 32). -/
def Obligations.TasksEndAndJoin : Prop :=
  (∀ (s : State) (n t : Nat) (st : W64) (c : Context) (p : Piece), performing (.joinUpdate n t st) s → n < 1152 → ctxOf s t = some c →
    joinWordAt s n c p → ∃ v, exec .joinUpdate s = .next (writeLocal p.key (localOf p.pa) v s) ∧
      joinAfter (readLocal s p.key (localOf p.pa) 16) v (st.toNat != 0) 0xFE (st.toNat % 2 ^ 16)) ∧
  (∀ (s : State) (n t : Nat) (st : W64) (c : Context) (k : Task) (e : BitVec 8) (v : W64), performing (.joinUpdate n t st) s → n < 1152 →
    ctxOf s t = some c → c.task = some k → k.desc.joinp ≠ 0 → translate s n (c.putStw 2 1 0) k.desc.joinp.toNat 16 .atomic 16 = .fail e v →
    exec .joinUpdate s = .next (record {
      area := 0, cause := e.toNat, taskid := k.taskid, asid := some k.desc.asid, cid := some (cidOf n), flags := b2n c.micro * 8 + 16
      ifc := ifcOfQuad s (n / 4), pc := c.here, tval := v.toNat, addr := k.desc.joinp.toNat } s)) ∧
  (∀ (s : State) (n t : Nat) (code : BitVec 8), performing (.failedJoinUpdate n t code) s → n < 1152 → endDrained s n t = false →
    exec .failedJoinUpdate s = .next (inTicks 1 (.failedJoinUpdate n t code) s)) ∧
  (∀ (s : State) (n t : Nat) (code : BitVec 8) (p : Piece), performing (.failedJoinUpdate n t code) s → n < 1152 → endDrained s n t = true →
    (coreAt s n).act.isTask t = true → (coreAt s n).act.ending.isSome = true → (coreAt s n).leaving.moving = false → joinWordAt s n (coreAt s n).act p →
    ∃ v, exec .failedJoinUpdate s = .next (soon (.swap n) (modCoreAt n (fun d => { d with swapReq := some .ended })
        (writeLocal p.key (localOf p.pa) v s))) ∧
      joinAfter (readLocal s p.key (localOf p.pa) 16) v true code.toNat 0) ∧
  (∀ (s : State) (n : Nat) (code : BitVec 8) (val : W64) (e : Ending), performing (.contextEnd n code val) s → n < 1152 →
    (coreAt s n).act.ending = some e →
    ∃ u, exec .contextEnd s = .next u ∧ ((coreAt s n).act.completions = [] → oneReport s u) ∧
      (∃ w, (w, Happening.failedJoinUpdate n (coreAt s n).act.tid code) ∈ u.agenda) ∧
      (coreAt u n).act.psub = List.replicate 8 none ∧ (coreAt u n).act.deferred = [] ∧ (coreAt u n).act.wait = .none ∧
      (∀ k ∈ (coreAt u n).engine0.buffer ++ (coreAt u n).engine1.buffer, k.taskid ≠ (coreAt s n).act.tid) ∧
      (regionDrains s = false → ∀ r ∈ u.remaps, r.taskid ≠ (coreAt s n).act.tid) ∧
      (regionDrains s = true → (∃ r ∈ s.remaps, r.taskid = (coreAt s n).act.tid) → (coreAt s n).act.tid ∈ u.tables.toFree) ∧
      ∀ h ∈ (coreAt u n).act.handles, h.st = .free ∨ (h.st = .closing ∧ h.running = true)) ∧
  (∀ (s : State) (n t : Nat) (k : Task), performing (.budgetExhausted n t) s → n < 1152 → (coreAt s n).act.task = some k → k.taskid = t →
    (coreAt s n).act.ending = none → (coreAt s n).swapReq = none → (coreAt s n).act.remaining (s.time / 315) = 0 →
    (hasSlot s k = true → exec .budgetExhausted s = .next (modCoreAt n (fun d => { d with swapReq := some .overrun }) (record {
      area := 0, cause := 0x8E, taskid := t, asid := some k.desc.asid, cid := some (cidOf n)
      flags := (coreAt s n).act.slotres + b2n (coreAt s n).act.micro * 8, ifc := ifcOfQuad s (n / 4), pc := (coreAt s n).act.here } s))) ∧
    (hasSlot s k = false → exec .budgetExhausted s =
      .next (endContext 0xB7 (BitVec.ofNat 64 k.quad) (makeCurrent n s).core.act.slotres false (makeCurrent n s)))) ∧
  (∀ (s : State) (n t : Nat), performing (.budgetExhausted n t) s → n < 1152 → 0 < (coreAt s n).act.remaining (s.time / 315) →
    exec .budgetExhausted s = .next s) ∧
  (∀ (s : State) (n : Nat) (code : BitVec 8) (k : Task), performing (.contextLost n code) s → n < 1152 → code ∈ [0xB4#8, 0xB5#8, 0xB6#8] →
    (coreAt s n).act.task = some k → (coreAt s n).act.ending = none →
    ((coreAt s n).swapReq = some .exited → exec .contextLost s = .next s) ∧
    ((coreAt s n).swapReq ≠ some .exited → k.rerun = true → exec .contextLost s =
      .next (endContext 0x90 (BitVec.ofNat 64 code.toNat) (makeCurrent n s).core.act.slotres false (makeCurrent n s))) ∧
    ((coreAt s n).swapReq ≠ some .exited → k.rerun = false → (coreAt s n).shadow = .free → available s n = true →
      ∃ u, exec .contextLost s = .next u ∧ (coreAt u n).act.task = none ∧ (coreAt u n).shadow = .loaded ∧
        ∃ k', (coreAt u n).shd.task = some k' ∧ k'.taskid = k.taskid ∧ k'.desc = k.desc ∧ k'.budget = k.desc.budget ∧ k'.rerun = true)) ∧
  (∀ (s : State) (n : Nat) (x : Deferred), performing (.deferredTrap n) s → n < 1152 → earliest x (coreAt s n).act.deferred →
    ∃ u, u = modAct (fun c => { c with
          deferred := c.deferred.erase x
          bundles := if waitsAtFirst (coreAt s n) then c.bundles - 1 else c.bundles }) (makeCurrent n s) ∧
      exec .deferredTrap s = .next (takeTrap x.code x.tval u.core.act.slotres u.core.act.slotres
        ((slotWord (fetchBundle u.core) u.core.act.slotres).toNat / 2 ^ 28 % 8) true (modSlot (fun y => { y with concern := x.addr }) u))) ∧
  (∀ s : State, dueResult s.core = none → dueCompletion s.core = none → swapBegins s.core = false → s.core.act.deferred ≠ [] →
    s.core.slot.issued = false ∨ waitsAtFirst s.core → coreTurn s = happen (.deferredTrap s.lcn) s)

open Sys2Proof.Claims in
/-- R53 to R58, R301 to R303, R341, R348, R391: the preload gives a new task its entry state, ends it with 0x8D where its list is bad, and begins blocked
items when their block clears; a swap takes 24 cycles, after which the shadow context is active and a context that is kept goes to the spill
engine; a departed context waits until its work is over, is written to its save slot and then stands in its band, saved, with the shadow bank free;
a migration is refused without a free target or remap entry, begins at the next group boundary, settles for 24 cycles, copies within its bound,
and moves the context with a remap entry. -/
def Obligations.ContextsEnterLeaveAndMove : Prop :=
  (∀ (s : State) (n : Nat) (p : Preload) (r : List Preload), performing (.preload n) s → n < 1152 → (coreAt s n).preloads = p :: r → p.item = 1 →
    p.blocked = false → p.entry.saved = none → p.entry.task.desc.plist = 0 → p.entry.task.desc.args.length = 4 →
    ∃ u, exec .preload s = .next u ∧
      (coreAt u n).shd.sreg = 0 :: p.entry.task.desc.args ++ List.replicate 11 0 ∧
      (coreAt u n).shd.pc = p.entry.task.desc.pc ∧ (coreAt u n).shd.stw = BitVec.ofNat 64 (p.entry.task.desc.fid * 8 + 0xC0) ∧
      (coreAt u n).shd.tvec = BitVec.ofNat 64 (regRaw s (0x1000070 + n / 4 * 0x1000)) ∧
      [(coreAt u n).shd.epc, (coreAt u n).shd.estw, (coreAt u n).shd.cause, (coreAt u n).shd.tval] = List.replicate 4 0#64 ∧
      (coreAt u n).shd.preds = [true, false, false, false, false, false, false, false] ∧
      (∀ x, readMask .va x.val { s with core := { s.core with act := (coreAt u n).shd } } = if x = (0 : Fin 8) then BitVec.allOnes 64 else 0)) ∧
  (∀ (s s' : State) (n : Nat) (p : Preload) (r : List Preload) (bs : List Byte) (o : Nat), performing (.preload n) s → n < 1152 →
    (coreAt s n).preloads = p :: r → p.item = 1 → p.blocked = false → p.entry.saved = none → p.entry.task.desc.plist ≠ 0 →
    fetchVia s n (taskView s p.entry.task) p.entry.task.desc.plist.toNat 128 64 = .bytes bs s' → listBad bs = some o →
    (coreAt s n).shd.task = some p.entry.task →
    ∃ u, exec .preload s = .next u ∧ (coreAt u n).shadow = .free ∧
      ∃ w, (w, Happening.failedJoinUpdate n p.entry.task.taskid 0x8D) ∈ u.agenda) ∧
  (∀ (s : State) (n : Nat), performing (.preload n) s → n < 1152 → (∀ p ∈ (coreAt s n).preloads, 5 ≤ p.item) → exec .preload s = .next s) ∧
  (∀ (s : State) (n : Nat), performing (.preloadRangeUnblock n) s → n < 1152 →
    ((∀ p ∈ (coreAt s n).preloads, p.blocked = true → p.mustWait (coreAt s n) = true) → exec .preloadRangeUnblock s = .next s) ∧
    ((∃ p ∈ (coreAt s n).preloads, p.blocked = true ∧ p.mustWait (coreAt s n) = false) →
      exec .preloadRangeUnblock s = .next (soon (.preload n) (modCoreAt n (fun d => { d with
        preloads := d.preloads.map (fun p => if p.mustWait (coreAt s n) then p else { p with blocked := false }) }) s)))) ∧
  (∀ (s : State) (n : Nat) (r : SwapReason), performing (.swap n) s → n < 1152 → (coreAt s n).swapReq = some r → r.saves = true →
    (coreAt s n).leaving = .no → mayLeaveBank s n → (r = .preempted → (coreAt s n).shadow = .loaded) → s.time ≤ (coreAt s n).time →
    ∃ u, exec .swap s = .next u ∧ (coreAt u n).cycle = (coreAt s n).cycle + 24 ∧
      (coreAt u n).time = (coreAt s n).time + 24 * (coreAt s n).unit ∧ (coreAt u n).leaving = .swap (coreAt u n).time ∧
      ((coreAt u n).time, Happening.swap n) ∈ u.agenda ∧ (coreAt u n).swapReq = some r ∧ (coreAt u n).act.runFrom = none ∧
      (coreAt u n).act.sreg = (coreAt s n).act.sreg ∧ (coreAt u n).shadow = (coreAt s n).shadow ∧
      ∃ k, (coreAt u n).act.task = some k ∧ k.slot.isSome = true) ∧
  (∀ (s : State) (n : Nat) (r : SwapReason) (at25 : Nat), performing (.swap n) s → n < 1152 → (coreAt s n).swapReq = some r → r.saves = true →
    (coreAt s n).leaving = .swap at25 → at25 ≤ s.time → (coreAt s n).act.ending = none → (coreAt s n).preloads = [] →
    (coreAt s n).shadow = .free ∨ (coreAt s n).shadow = .loaded →
    ∃ u, exec .swap s = .next u ∧ (coreAt u n).shadow = .spilling r false ∧ (coreAt u n).shd.tid = (coreAt s n).act.tid ∧
      (coreAt u n).shd.sreg = (coreAt s n).act.sreg ∧ (coreAt u n).shd.preds = (coreAt s n).act.preds ∧
      (coreAt u n).swapReq = none ∧ (coreAt u n).leaving = .no ∧
      (∃ w, (w, Happening.spill n) ∈ u.agenda) ∧
      ((coreAt s n).shadow = .loaded → (coreAt u n).act.sreg = (coreAt s n).shd.sreg ∧ (coreAt u n).half = !(coreAt s n).half) ∧
      ((coreAt s n).shadow = .free → (coreAt u n).act.task = none ∧ (s.time ≤ (coreAt s n).time → (coreAt u n).cycle = (coreAt s n).cycle))) ∧
  (∀ (s : State) (n : Nat), performing (.swap n) s → n < 1152 → (coreAt s n).swapReq = none → exec .swap s = .next s) ∧
  (∀ (s : State) (n : Nat) (r : SwapReason) (b : Bool) (t : Task), performing (.spill n) s → n < 1152 → (coreAt s n).shadow = .spilling r b →
    (coreAt s n).shd.task = some t →
    (Machine.imageAway s n t = false → spillReady s (coreAt s n) = false → exec .spill s = .next (inTicks 1 (.spill n) s)) ∧
    (Machine.imageAway s n t = false → b = false → rowTested s (sliceBase (cidOf n) + t.plist.fplo) (t.plist.fphi - t.plist.fplo) = true →
      exec .spill s = .next (inTicks 1 (.spill n) s)) ∧
    (spillReady s (coreAt s n) = true → rowTested s (sliceBase (cidOf n) + t.plist.fplo) (t.plist.fphi - t.plist.fplo) = false → slotWritable s t = true → b = false → ∃ d, exec .spill s =
      .next (inTicks d (.spill n) (modCoreAt n (fun c => { c with shadow := .spilling r true }) s))) ∧
    (spillReady s (coreAt s n) = true → rowTested s (sliceBase (cidOf n) + t.plist.fplo) (t.plist.fphi - t.plist.fplo) = false → slotWritable s t = true → b = true → r ≠ .overrun → (kioskAt s t.quad).bands.length = 4 → t.desc.band < 4 →
      slotHere s n t → quadServes s t.quad = true → (kioskAt s t.quad).used t.desc.band < 256 →
      ∃ u e, exec .spill s = .next u ∧ (coreAt u n).shadow = .free ∧ e ∈ (kioskAt u t.quad).band t.desc.band ∧ e.task.taskid = t.taskid ∧
        e.saved.map (fun p => p.1.sreg) = some (coreAt s n).shd.sreg ∧
        ∃ q i bs, t.slot = some (q, i) ∧ bs.length ≤ 4325376 ∧ u.mem = (writeLocal ((asidEntry s (coreAt s n).shd.asid).key 0)
          (localOf (slotBase s q i)) bs { s with free := s.free + 1 }).mem) ∧
    (∀ q i, spillReady s (coreAt s n) = true → slotWritable s t = true → b = true → t.slot = some (q, i) →
      let a := slotBase s q i
      let len := (spillBytes (coreAt s n).shd + 63) / 64 * 64
      (pkgOf a = pkgId s → inMotion s (localOf a) len = true → exec .spill s = .next (inTicks 1 (.spill n) s)) ∧
      (pkgOf a ≠ pkgId s → (∀ x ∈ s.accesses, x.taskid ≠ t.taskid) → ∃ u, exec .spill s = .next u ∧ u.mem = s.mem ∧
        (coreAt u n).shadow = .spilling r true ∧ u.accesses.length = s.accesses.length + (len + 4095) / 4096)) ∧
    (spillReady s (coreAt s n) = true → rowTested s (sliceBase (cidOf n) + t.plist.fplo) (t.plist.fphi - t.plist.fplo) = false → slotWritable s t = false →
      ∃ u, exec .spill s = .next u ∧ (coreAt u n).shadow = .free ∧ ∃ w, (w, Happening.failedJoinUpdate n t.taskid 0xB8) ∈ u.agenda)) ∧
  (∀ (s : State) (n m : Nat), performing (.migration n m) s → n < 1152 → (m = n ∨ m / 144 ≠ n / 144) → exec .migration s = .next s) ∧
  (∀ (s : State) (n m : Nat) (t : Task), performing (.migration n m) s → n < 1152 → m < 1152 → m / 144 = n / 144 → m ≠ n →
    (coreAt s n).act.task = some t → (coreAt s n).act.ending = none →
    ((coreAt s n).leaving = .no → targetFree s m = false ∨ 64 ≤ remapsTaken s →
      exec .migration s = .next (soon (.thermalThrottle n) (modCoreAt n (fun d => { d with
        swapReq := if d.swapReq = some (.migrated m) then none else d.swapReq }) s))) ∧
    ((coreAt s n).leaving = .no → targetFree s m = true → remapsTaken s < 64 → (coreAt s n).swapReq = none →
      exec .migration s = .next (modCoreAt n (fun d => { d with swapReq := some (.migrated m) }) s)) ∧
    ((coreAt s n).leaving = .no → targetFree s m = true → remapsTaken s < 64 → (coreAt s n).swapReq = some (.migrated m) →
      (coreAt s n).act.group.isOpen = false →
      ∃ u, exec .migration s = .next u ∧ (coreAt u n).leaving = .settling (s.time + 24 * (coreAt s n).unit) ∧ (coreAt u n).act.runFrom = none ∧
        (s.time + 24 * (coreAt s n).unit, Happening.migration n m) ∈ u.agenda ∧ (coreAt u n).act.sreg = (coreAt s n).act.sreg) ∧
    (∀ ends, (coreAt s n).leaving = .settling ends → ends ≤ s.time → (coreAt s n).swapReq = some (.migrated m) → moveReady (coreAt s n) = true →
      ∃ u w, exec .migration s = .next u ∧ (coreAt u n).leaving = .copying ∧ (w, Happening.migration n m) ∈ u.agenda ∧
        w ≤ s.time + moveTicks t * Config.unitsPerTick ∧ (coreAt u n).act.sreg = (coreAt s n).act.sreg) ∧
    ((coreAt s n).leaving = .copying → (coreAt s n).swapReq = some (.migrated m) → regionDrains s = true →
      exec .migration s = .next (inTicks 1 (.migration n m) s)) ∧
    ((coreAt s n).leaving = .copying → (coreAt s n).swapReq = some (.migrated m) → regionDrains s = false →
      ∃ u, exec .migration s = .next u ∧ (coreAt u m).act.tid = t.taskid ∧ (coreAt u m).act.sreg = (coreAt s n).act.sreg ∧
        (coreAt u m).act.preds = (coreAt s n).act.preds ∧ (coreAt u n).act.task = none ∧ ⟨n, m, t.taskid⟩ ∈ u.remaps))

/-! ### Happenings: results, bundles, barriers -/

namespace Sys2Proof.Claims

/-- R131, R136: the slots of a Trellis once result `r` has arrived: the slot that awaited it awaits nothing. -/
def settled {α : Type} (r : Nat) (t : Trellis α) : List (TSlot α) :=
  t.slots.map (fun p => if p.await = some r then ⟨p.val, none⟩ else p)

/-- R345: the word of the lowest slot with a UNIT, from slot `k` on. -/
def lowestUnit (b : BitVec 128) (k u : Nat) (w : W32) : Prop :=
  ∃ i < 4, k ≤ i ∧ w = slotWord b i ∧ slotUnit w = u ∧ ∀ j < i, k ≤ j → slotUnit (slotWord b j) ≠ u

/-- R64: the address of the BARCFG of identifier `id` of a network: of a quad's kiosk page, a die's page, the package's or the pod's. -/
def barcfgPlace (z : Scope) (pl id a : Nat) : Prop :=
  (z = .quad ∧ pl < 288 ∧ a = 0x1000100 + pl * 0x1000 + 8 * id) ∨ (z = .die ∧ pl < 8 ∧ a = 0x2000100 + pl * 0x1000 + 8 * id) ∨
    (z = .pkg ∧ pl = 0 ∧ a = 0x2100100 + 8 * id) ∨ (z = .pod ∧ pl = 0 ∧ a = 0x2101100 + 8 * id)

/-- R65: a barrier's release brings all its participants past it. -/
def releasedOnce (b b' : Barrier) : Prop := b'.gen = b.gen + 1 ∧ b'.releasing + 1 = b.releasing ∧ b'.count = b.count

end Sys2Proof.Claims

open Sys2Proof.Claims in
/-- R89, R131, R136, R226, R296, R335, R345, R355: a result arrives: what awaited it is readable and no register changes; a matrix instruction
completes: its flags are set, 0x46 is deferred where one is enabled, its group sums count at its level; a stall bundle passes one
cycle and two counts; bundle faults are taken lowest code first before any slot; an unassigned OPC takes 0x04. R63 to R66: a release advances the
generation; a write of BARCFG clears the arrival count, but for arrivals of its own tick, and keeps the generation. -/
def Obligations.ResultsBundlesAndBarriersGoOn : Prop :=
  (∀ (s : State) (n r : Nat), performing (.resultArrival n r) s → n < 1152 →
    ∃ u, exec .resultArrival s = .next u ∧ (coreAt u n).act.results = (coreAt s n).act.results.filter (fun x => x.rid != r) ∧
      (coreAt u n).act.sreg = (coreAt s n).act.sreg ∧ (coreAt u n).act.va = (coreAt s n).act.va ∧ (coreAt u n).act.vb = (coreAt s n).act.vb ∧
      (coreAt u n).act.sq.slots = settled r (coreAt s n).act.sq ∧ (coreAt u n).act.qa.slots = settled r (coreAt s n).act.qa ∧
      (coreAt u n).act.qb.slots = settled r (coreAt s n).act.qb ∧ u.mem = s.mem) ∧
  (∀ (s : State) (n i : Nat) (m : Completion), performing (.matrixComplete n i) s → n < 1152 →
    (coreAt s n).act.completions.find? (fun x => x.mid == i) = some m →
    ∃ u, exec .matrixComplete s = .next u ∧ (∀ x ∈ (coreAt u n).act.completions, x.mid ≠ i) ∧
      ((coreAt u n).act.stw.toNat / 2 ^ 32) % 32 = ((coreAt s n).act.stw.toNat / 2 ^ 32) % 32 ||| m.flags.toNat ∧
      (m.flags &&& m.fen ≠ 0 → ⟨0x46, BitVec.ofNat 64 (m.pc.toNat + m.flags.toNat * 2 ^ 18), m.order, 0⟩ ∈ (coreAt u n).act.deferred) ∧
      (m.flags &&& m.fen = 0 → m.f0 = none → (coreAt u n).act.deferred = (coreAt s n).act.deferred) ∧
      (m.level = 0 → (coreAt u n).mgrp = (coreAt s n).mgrp) ∧
      (m.level ≠ 0 → m.groups ≠ 0 → (coreAt u n).mgrp = (coreAt s n).mgrp.set (m.level - 1)
        (BitVec.ofNat 64 (((coreAt s n).mgrp.getD (m.level - 1) 0).toNat + m.groups))) ∧
      (coreAt u n).act.accs = (coreAt s n).act.accs ∧ (coreAt u n).act.sreg = (coreAt s n).act.sreg) ∧
  (∀ (s : State) (n i : Nat), performing (.matrixComplete n i) s → n < 1152 → (∀ x ∈ (coreAt s n).act.completions, x.mid ≠ i) →
    exec .matrixComplete s = .next s) ∧
  (∀ (s : State) (n : Nat), performing (.stallBundle n) s → n < 1152 →
    exec .stallBundle s = .next (modCoreAt n (fun d => { d with
      time := d.time + Config.cycleUnits d.op, cycle := d.cycle + 1, cestall := d.cestall + 1
      act := { d.act with estall := d.act.estall + 1 } }) s)) ∧
  (∀ (s : State) (f : BitVec 8 × W64), performing .illegalBundle s → bundleFault (fetchBundle s.core) = some f →
    exec .illegalBundle s = .next (takeTrap f.1 f.2 s.core.act.slotres s.core.act.slotres 7 false s)) ∧
  (∀ (b : BitVec 128) (w : W32), lowestUnit b 0 6 w → bundleFault b = some (0x00, w.setWidth 64)) ∧
  (∀ (b : BitVec 128) (w : W32), (∀ k < 4, slotUnit (slotWord b k) ≠ 6) → lowestUnit b 1 7 w → bundleFault b = some (0x01, w.setWidth 64)) ∧
  (∀ (b : BitVec 128) (i j : Nat), (∀ k < 4, slotUnit (slotWord b k) ≠ 6) → (∀ k < 4, 1 ≤ k → slotUnit (slotWord b k) ≠ 7) → i < j → j < 4 →
    slotUnit (slotWord b i) = slotUnit (slotWord b j) → (∀ k, k = i ∨ k = j → ¬(slotUnit (slotWord b k) = 0 ∧ slotOpc (slotWord b k) = 0)) →
    ∃ u, bundleFault b = some (0x02, u)) ∧
  (∀ s : State, performing .unassignedOpcode s → exec .unassignedOpcode s = .next (trap 0x04 ((curWord s).setWidth 64) s)) ∧
  (∀ (s : State) (z : Scope) (pl id : Nat), performing (.barrierRelease z pl id) s →
    (barrierAt s z pl id).scope = z → (barrierAt s z pl id).place = pl → (barrierAt s z pl id).id = id →
    ((barrierAt s z pl id).releasing = 0 → ¬(z = .pod ∧ ∃ p < pkgId s, Config.podEnabled p id (tickNow s) = true) → exec .barrierRelease s = .next s) ∧
    ((barrierAt s z pl id).releasing = 0 → (z = .pod ∧ ∃ p < pkgId s, Config.podEnabled p id (tickNow s) = true) →
      exec .barrierRelease s = .next (putBarrier { barrierAt s z pl id with gen := (barrierAt s z pl id).gen + 1 } s)) ∧
    ((barrierAt s z pl id).releasing ≠ 0 → ∃ u, exec .barrierRelease s = .next u ∧
      releasedOnce (barrierAt s z pl id) (barrierAt u z pl id) ∧
      ∀ z' pl' id', (z', pl', id') ≠ (z, pl, id) → barrierAt u z' pl' id' = barrierAt s z' pl' id')) ∧
  (∀ (s : State) (z : Scope) (a pl id : Nat) (v : W64), barcfgPlace z pl id a → performing (.barcfgWrite a v) s → id < 16 →
    let fresh := if (barrierAt s z pl id).tick = tickNow s then (barrierAt s z pl id).fresh else 0
    ∃ u, exec .barcfgWrite s = .next u ∧ (barrierAt u z pl id).gen = (barrierAt s z pl id).gen ∧
      (fresh = 0 ∨ v.getLsbD 35 = false → (barrierAt u z pl id).count = 0) ∧
      (¬(z = .pod ∧ ∃ p < pkgId s, Config.podEnabled p id (tickNow s) = true) → v.getLsbD 35 = true → fresh < v.toNat % 2 ^ 21 →
        (barrierAt u z pl id).count = fresh) ∧
      regRaw u a % 2 ^ 36 = v.toNat % 2 ^ 36)

/-! ### Happenings: power -/

namespace Sys2Proof.Claims

/-- R293, R295: from `s` to `t`, core `n` has begun a transition to point `k` at the present time. -/
def beginsTransition (n k : Nat) (s t : State) : Prop :=
  let a := (coreAt s n).op
  let e := s.time + (if k < a then 64 else 200 * (k - a) + 200) * Config.cycleUnits k
  t = atTime e (.opSettled n) (modCoreAt n (fun d => { d with opMove := some ⟨k, e⟩ }) s)

/-- R294: ECAP, OPLIM and TLIM are the writable bits of PWRCTL. -/
def pwrctlBits : Nat := 0x1FFF + 0xFF0000

/-- R294: the address of PWRCTL of core `n`. -/
def pwrctlOf (n : Nat) : Nat := 0x2400000 + n * 0x40

/-- R305: how far a message's SEQ lies past the last valid one. -/
def ahead (s : State) (v : W64) : Nat := (BitVec.ofNat 32 (v.toNat / 2 ^ 32) - s.rack.last).toNat

/-- R299: how a subscription fires at a sample and stands after it; `h` is its sensor's hysteresis. -/
def fires (b : Subscription) (v : Int) : Prop := b.armed = true ∧ (if b.falling then v < b.threshold else b.threshold ≤ v)

end Sys2Proof.Claims

open Sys2Proof.Claims in
/-- R90, R185, R293 to R298, R301, R305, R316, R368, R392: rails settle at their time; a transition switches the point when its settling ends, and a held
request starts then; lowering OPLIM below the point in force starts a transition down at once; a lease is asked for, granted with headroom below
the limit (assumption 47) for no more than asked, ends at its last tick or when it is revoked, and the core leaves OP7; a hot core's OPLIM falls by one point with one record of
0xB3; a newer rack message sets the budget between 300 W and 3,000 W and starts a hold, any other is counted; the floor applies when the
hold ends. -/
def Obligations.PowerFollowsItsLimits : Prop :=
  (∀ (s : State) (n : Nat), performing (.railSettled n) s → n < 1152 →
    (s.time < (coreAt s n).railEnds → exec .railSettled s = .next (modCoreAt n id s)) ∧
    ((coreAt s n).railEnds ≤ s.time → exec .railSettled s = .next (modCoreAt n (fun d => { d with railEnds := 0 }) s))) ∧
  (∀ (s : State) (n : Nat) (m : OpMove), performing (.opSettled n) s → n < 1152 → (coreAt s n).opMove = some m → m.ends ≤ s.time →
    (coreAt s n).opHeld = none → (coreAt s n).act.task.isSome = true →
    exec .opSettled s = .next (modCoreAt n (fun d => { d.catchUp s.time with
      op := m.target, opMove := none, act := (d.catchUp s.time).act.putStw 5 3 m.target }) s)) ∧
  (∀ (s : State) (n k : Nat) (m : OpMove), performing (.opSettled n) s → n < 1152 → (coreAt s n).opMove = some m → m.ends ≤ s.time →
    (coreAt s n).opHeld = some k → k ≤ 6 → k ≤ regRaw s (pwrctlOf n) / 2 ^ 10 % 8 → k ≠ m.target → (coreAt s n).act.task = none →
    ∃ u, exec .opSettled s = .next u ∧
      beginsTransition n k (modCoreAt n (fun d => { d.catchUp s.time with op := m.target, opMove := none, opHeld := none }) s) u) ∧
  (∀ (s : State) (n : Nat), performing (.opSettled n) s → n < 1152 → (coreAt s n).opMove = none ∨ (∃ m, (coreAt s n).opMove = some m ∧ s.time < m.ends) →
    exec .opSettled s = .next s) ∧
  (∀ (s : State) (n : Nat) (v : W64), performing (.pwrctlWrite n v) s → n < 1152 →
    ∃ t u, t = setReg (pwrctlOf n) ((v.toNat &&& pwrctlBits) ||| (regRaw s (pwrctlOf n) &&& (2 ^ 64 - 1 - pwrctlBits))) s ∧ exec .pwrctlWrite s = .next u ∧
      (v.toNat / 2 ^ 10 % 8 < regRaw s (pwrctlOf n) / 2 ^ 10 % 8 → v.toNat / 2 ^ 10 % 8 < (coreAt s n).op →
        (∀ m, (coreAt s n).opMove = some m → v.toNat / 2 ^ 10 % 8 < m.target) → beginsTransition n (v.toNat / 2 ^ 10 % 8) t u) ∧
      (regRaw s (pwrctlOf n) / 2 ^ 10 % 8 ≤ v.toNat / 2 ^ 10 % 8 → u = t) ∧
      ((coreAt s n).op ≤ v.toNat / 2 ^ 10 % 8 → (coreAt s n).opMove = none → u = t)) ∧
  (∀ (s : State) (v : W64), performing (.boostLeaseRequest v) s →
    ∃ d ≤ 24000, ∃ g k, exec .boostLeaseRequest s = .next (inTicks d (.boostLeaseAnswer g k) (setReg 0x2500000
      (v.toNat % 2 ^ 11 + v.toNat / 2 ^ 16 % 2 ^ 32 * 2 ^ 16)
      { s with leaseAsk := some ⟨v.toNat % 2 ^ 11, v.toNat / 2 ^ 16 % 2 ^ 32⟩, free := s.free + 2 }))) ∧
  (∀ (s : State) (g : Bool) (k : Nat) (a : LeaseAsk), performing (.boostLeaseAnswer g k) s → s.leaseAsk = some a →
    (g = true → headroom s = true → populated a.cid = true → (coreAt s (lcnOf a.cid)).act.task.isSome = true → 0 < min k a.ticks →
      ∃ u, exec .boostLeaseAnswer s = .next u ∧ u.leaseAsk = none ∧
        regRaw u 0x2500000 = (a.cid + min k a.ticks * 2 ^ 16 + 2 ^ 61 + 2 ^ 62) % 2 ^ 64 ∧
        (coreAt u (lcnOf a.cid)).act.task.map Task.lease = some (min k a.ticks)) ∧
    (g = false ∨ headroom s = false → exec .boostLeaseAnswer s = .next (setReg 0x2500000 (a.cid + a.ticks * 2 ^ 16 + 2 ^ 62) { s with leaseAsk := none }))) ∧
  (∀ s : State, s.leaseAsk = none → ∀ g k, performing (.boostLeaseAnswer g k) s → exec .boostLeaseAnswer s = .next s) ∧
  (∀ (s : State) (n t : Nat), performing (.boostLeaseEnd n t) s → n < 1152 → (coreAt s n).act.psub = List.replicate 8 none →
    (0 < (coreAt s n).act.leaseLeft (s.time / 315) → exec .boostLeaseEnd s = .next s) ∧
    ((coreAt s n).act.isTask t = true → (coreAt s n).act.leased = true → (coreAt s n).act.leaseLeft (s.time / 315) = 0 → (coreAt s n).op = 7 →
      (coreAt s n).opMove = none →
      ∃ u, exec .boostLeaseEnd s = .next u ∧ (coreAt u n).act.leased = false ∧
        (coreAt u n).opMove = some ⟨6, s.time + 64 * Config.cycleUnits 6⟩)) ∧
  (∀ (s : State) (n : Nat), performing (.boostLeaseRevoke n) s → n < 1152 → (coreAt s n).act.psub = List.replicate 8 none →
    ((coreAt s n).act.leased = false → exec .boostLeaseRevoke s = .next s) ∧
    ((coreAt s n).act.leased = true → (coreAt s n).op = 7 → (coreAt s n).opMove = none → ∃ u, exec .boostLeaseRevoke s = .next u ∧ oneReport s u ∧
      (coreAt u n).act.leased = false ∧ (coreAt u n).opMove = some ⟨6, s.time + 64 * Config.cycleUnits 6⟩)) ∧
  (∀ (s : State) (n k : Nat), performing (.thermalThrottle n) s → n < 1152 → k = regRaw s (pwrctlOf n) / 2 ^ 10 % 8 → (coreAt s n).throttled = true →
    (k = 0 → exec .thermalThrottle s = .next s) ∧
    (0 < k → ∃ t u, t = setReg (pwrctlOf n) (regRaw s (pwrctlOf n) - 2 ^ 10) s ∧ exec .thermalThrottle s = .next u ∧
      ((coreAt s n).op < k → (coreAt s n).opMove = none → u = t) ∧
      (k ≤ (coreAt s n).op → (∀ m, (coreAt s n).opMove = some m → k - 1 < m.target) → beginsTransition n (k - 1) t u))) ∧
  (∀ (s : State) (n : Nat), performing (.thermalThrottle n) s → n < 1152 → regRaw s (pwrctlOf n) / 2 ^ 10 % 8 = 0 →
    (coreAt s n).throttled = false →
    exec .thermalThrottle s = .next (modCoreAt n (fun d => { d with throttled := true })
      (record { area := 3, cause := 0xB3, cid := some (cidOf n), tval := cidOf n } s))) ∧
  (∀ (s : State) (v : W64), performing (.rackBudgetMessage v) s →
    (1 ≤ ahead s v ∧ ahead s v < 2 ^ 31 → exec .rackBudgetMessage s = .next
      (inTicks 120000000 (.rackBudgetHoldExpiry (s.time / 315 + 120000000)) { s with rack := { s.rack with
        inForce := max 300 (min (v.toNat % 2 ^ 32) 3000), last := BitVec.ofNat 32 (v.toNat / 2 ^ 32)
        deadline := some (s.time / 315 + 120000000), floor := false } })) ∧
    (¬(1 ≤ ahead s v ∧ ahead s v < 2 ^ 31) → exec .rackBudgetMessage s = .next
      { s with rack := { s.rack with ignored := min 0xFFFF (s.rack.ignored + 1) } })) ∧
  (∀ (s : State) (d : Nat), performing (.rackBudgetHoldExpiry d) s →
    (s.rack.deadline ≠ some d → exec .rackBudgetHoldExpiry s = .next s) ∧
    (s.rack.deadline = some d → exec .rackBudgetHoldExpiry s = .next (record
      { area := 3, event := 0x0301, tval := regRaw s 0x2500018 % 2 ^ 32, aux := s.rack.last.toNat }
      { s with rack := { s.rack with inForce := regRaw s 0x2500018 % 2 ^ 32, deadline := none, floor := true } }))) ∧
  (∀ s : State, performing .sensorSample s → ∃ u, exec .sensorSample s = .next u ∧
    (∃ w, (w, Happening.sensorSample) ∈ u.agenda ∧ s.time / 315 + 4096 ≤ w / 315) ∧ u.samples.length = 1163 ∧
    (0x830, (s.rack.inForce : Int) * 1000) ∈ u.samples) ∧
  (∀ (b : Subscription) (v : Int), ((b.test v).1 = true ↔ fires b v) ∧ ((b.test v).1 = true → (b.test v).2 = { b with armed := false }) ∧
    ((b.test v).1 = false → (b.test v).2.armed = true → b.armed = true ∨
      (if b.falling then b.threshold + hysteresis b.sensor ≤ v else v + hysteresis b.sensor ≤ b.threshold)))

/-! ### Happenings: host port, rings, health of memory -/

namespace Sys2Proof.Claims

/-- R119: the bytes that a write with enables leaves at an address: the enabled ones new, the others as they were. -/
def masked (old bs : List Byte) (es : List Bool) : List Byte :=
  (List.range bs.length).map (fun i => if es.getD i true then bs.getD i 0 else old.getD i 0)

/-- R28, R303: local address `a` lies in a slice that no remap entry moves, in a block of 64 bytes that holds `n` bytes from it. -/
def inSlice (s : State) (a n : Nat) : Prop :=
  regionOf a = .slice ∧ (∀ r ∈ s.remaps, r.old ≠ lcnOf (sliceCid a)) ∧ a % 64 + n ≤ 64 ∧ 0 < n

/-- R17, R28: the die of a slice address. -/
def dieOfSlice (a : Nat) : Nat := lcnOf (sliceCid a) / 144

/-- R118: a host read of slice address `a`, device physical address `w`, is answered with what stands there, or with error status and event
0x0106. -/
def answered (s : State) (tag w a n : Nat) (t : State) : Prop :=
  (spanBad s a n = false → t = { s with answers := s.answers ++ [⟨tag, some (readLocal s 0 a n)⟩] }) ∧
  (spanBad s a n = true → t = record { area := 1, event := 0x0106, tval := tag, addr := w } { s with answers := s.answers ++ [⟨tag, none⟩] })

/-- R369: the number of records in ring `r` and its capacity, from ERRPTR and ERRBASE. -/
def ringUse (s : State) (r : Nat) : Nat :=
  (regRaw s (0x2600008 + r * 0x20) % 2 ^ 16 + 2 ^ 16 - regRaw s (0x2600008 + r * 0x20) / 2 ^ 16 % 2 ^ 16) % 2 ^ 16
def ringLog (s : State) (r : Nat) : Nat := regRaw s (0x2600000 + r * 0x20) % 32

/-- R369: ring `r` can take a record. -/
def ringRoom (s : State) (r : Nat) : Prop := 6 ≤ ringLog s r ∧ ringLog s r ≤ 15 ∧ ringUse s r ≠ 2 ^ ringLog s r

/-- R369: the address of the next record of ring `r`. -/
def ringPlace (s : State) (r : Nat) : Nat :=
  regRaw s (0x2600000 + r * 0x20) / 2 ^ 12 % 2 ^ 44 * 0x1000 + 64 * (regRaw s (0x2600008 + r * 0x20) % 2 ^ 16 % 2 ^ ringLog s r)

/-- R374, R375: from `s` to `t`, a new interleave table is in force and `w` still wait: its version is the next, the older one drains, and the
units that change channel begin to move. -/
def installed (m : List Nat) (w : List (List Nat)) (s t : State) : Prop :=
  t.tables.version = (s.tables.version + 1) % 4 ∧ t.tables.map = m ∧ t.tables.old = some s.tables.map ∧ t.tables.waiting = w ∧
    t.tables.since = s.nextId ∧
    (∃ w, (w, Happening.tableDrainComplete) ∈ t.agenda) ∧ (∀ u ∈ s.tables.moving, u ∈ t.tables.moving) ∧
    (∀ c ∈ s.mem, regionOf c.1 = .lpddr → channelOf s.tables.map c.1 ≠ channelOf m c.1 → c.1 / 4096 ∈ t.tables.moving) ∧ t.mem = s.mem

/-- R369: ring `r` can take a record, in LPDDR6 of the package whose unit serves it. -/
def ringServes (s : State) (r : Nat) : Prop :=
  ringRoom s r ∧ pkgOf (ringPlace s r) = pkgId s ∧ regionOf (localOf (ringPlace s r)) = .lpddr ∧
    regionOf (localOf (ringPlace s r) + 63) = .lpddr ∧ inMotion s (localOf (ringPlace s r)) 64 = false

/-- R369: from `s` to `t` ring `r` has taken a record of these bytes. -/
def ringTook (s : State) (r : Nat) (bs : List Byte) (t : State) : Prop :=
  regRaw t (0x2600008 + r * 0x20) % 2 ^ 16 = (regRaw s (0x2600008 + r * 0x20) + 1) % 2 ^ 16 ∧
    regRaw t (0x2600008 + r * 0x20) / 2 ^ 16 = regRaw s (0x2600008 + r * 0x20) / 2 ^ 16 ∧ readLocal t 0 (localOf (ringPlace s r)) 64 = bs

/-- R378: the spares in use of the bank that row `row` of a place lies in: DRAM has several banks in a place. -/
def sparesOf (s : State) (p : MemPlace) (row : Nat) : Nat :=
  (s.health.spared.filter (fun e => e.1 == p && sameBank p row e.2)).length

end Sys2Proof.Claims

namespace Sys2Proof.Claims

/-- R117: the bytes of these entries lie in slices that no remap entry moves, none in a row under test. -/
def plainEntries (s : State) (l : List HostEntry) : Prop :=
  ∀ e ∈ l, inSlice s (localOf e.addr) e.bytes.length ∧ rowTested s (localOf e.addr) e.bytes.length = false

/-- R117: a local address of `n` bytes in the DRAM of the package, which no ingress buffer stands before. -/
def unbuffered (s : State) (a n : Nat) : Prop :=
  pkgOf a = pkgId s ∧ (regionOf (localOf a) = .dram ∨ regionOf (localOf a) = .lpddr) ∧ hostHole a n = false ∧ 0 < n

/-- R117, R375: from `s` to `t` the host port holds `op`, and tries it again. -/
def heldInMotion (s : State) (op : HostOp) (t : State) : Prop :=
  t.hostHeld = s.hostHeld ++ [⟨op, s.hostSerial⟩] ∧ t.mem = s.mem ∧ t.answers = s.answers ∧ ∃ w, (w, Happening.portRetry) ∈ t.agenda

end Sys2Proof.Claims

open Sys2Proof.Claims in
/-- R40, R41, R117 to R119, R368, R375, R376, R378, R379: a host write to a slice enters its die's buffer, or waits at the host port while that is
full, and what arrives later waits behind it; one to other memory performs its bytes once the host writes before it have performed and its
place serves it, and at a hole is refused with its CXL tag; a claimed head entry performs, and what waited for it alone goes on; a host read is
answered at once, or waits behind unapplied entries; with AUTO set, entries that have aged are recorded and applied; with AUTO clear, requests
held AGE ticks are refused; DRAIN applies every entry. Claims hold in memories of canonical form (the invariant of
EveryStepKeepsMemoryCanonical) where they read back what was written. -/
def Obligations.HostAccessesPassTheIngress : Prop :=
  (∀ (s : State) (a tag : Nat) (bs : List Byte) (es : List Bool), performing (.hostWrite a bs es tag) s → s.hostPort = [] → pkgOf a = pkgId s →
    inSlice s (localOf a) bs.length →
    ((ingressAt s (dieOfSlice (localOf a))).entries.length < 4096 →
      ∃ t, exec .hostWrite s = .next t ∧ t.mem = s.mem ∧ t.hostPort = [] ∧ ∃ e, (ingressAt t (dieOfSlice (localOf a))).entries =
        (ingressAt s (dieOfSlice (localOf a))).entries ++ [e] ∧ e.addr = a ∧ e.bytes = bs ∧ e.tick = s.time / 315 ∧ e.claimed = none ∧
        ∀ i < bs.length, e.enables.getD i false = es.getD i true) ∧
    (4096 ≤ (ingressAt s (dieOfSlice (localOf a))).entries.length →
      exec .hostWrite s = .next { s with hostPort := [.write a bs (es ++ List.replicate bs.length true) tag] })) ∧
  (∀ (s : State) (op : HostOp) (r : List HostOp), s.hostPort = op :: r → takeOp op s = (s, some op) →
    (∀ a bs es tag, performing (.hostWrite a bs es tag) s →
      exec .hostWrite s = .next { s with hostPort := s.hostPort ++ [.write a bs (es ++ List.replicate bs.length true) tag] }) ∧
    (∀ a n tag, performing (.hostRead a n tag) s → exec .hostRead s = .next { s with hostPort := s.hostPort ++ [.read a n tag] })) ∧
  (∀ (s : State) (a tag : Nat) (bs : List Byte), performing (.hostWrite a bs [] tag) s → s.hostPort = [] → unbuffered s a bs.length →
    (s.hostHeld = [] → (∀ g ∈ s.ingress, g.2.entries = []) → inMotion s (localOf a) bs.length = false →
      exec .hostWrite s = .next (writeLocal 0 (localOf a) bs s)) ∧
    (s.hostHeld ≠ [] ∨ (∃ g ∈ s.ingress, ∃ e ∈ g.2.entries, e.serial < s.hostSerial) → inMotion s (localOf a) bs.length = false →
      exec .hostWrite s = .next { s with hostHeld := s.hostHeld ++ [⟨.write a bs (List.replicate bs.length true) tag, s.hostSerial⟩] }) ∧
    (inMotion s (localOf a) bs.length = true → ∃ t, exec .hostWrite s = .next t ∧
      heldInMotion s (.write a bs (List.replicate bs.length true) tag) t)) ∧
  (∀ (s : State) (a tag k : Nat) (bs : List Byte), performing .portRetry s → s.hostPort = [] → unbuffered s a bs.length →
    s.hostHeld = [⟨.write a bs (List.replicate bs.length true) tag, k⟩] → (∀ g ∈ s.ingress, ∀ e ∈ g.2.entries, k ≤ e.serial) →
    inMotion s (localOf a) bs.length = false →
    exec .hostWrite s = .next { writeLocal 0 (localOf a) bs s with hostHeld := [] }) ∧
  (∀ (s : State) (a tag : Nat) (bs : List Byte) (es : List Bool), performing (.hostWrite a bs es tag) s → s.hostPort = [] →
    regionOf (localOf a) = .hole → exec .hostWrite s = .next (record { area := 1, event := 0x0106, tval := tag, addr := a } s)) ∧
  (∀ (s : State) (d : Nat) (e : HostEntry) (r : List HostEntry), performing (.hostEntryPerform d) s → d < 8 → (ingressAt s d).entries = e :: r →
    (e.claimed = none → exec .hostEntryPerform s = .next s) ∧
    (e.claimed.isSome = true → rowTested s (localOf e.addr) e.bytes.length = true →
      exec .hostEntryPerform s = .next (inTicks 1 (.hostEntryPerform d) s)) ∧
    (e.claimed.isSome = true → plainEntries s [e] → s.memOk = true → s.hostHeld = [] → s.hostPort = [] → e.enables.length = e.bytes.length →
      ((ingressAt s d).waiting = [] → ∃ t, exec .hostEntryPerform s = .next t ∧ (ingressAt t d).entries = r ∧ t.answers = s.answers ∧
        readLocal t 0 (localOf e.addr) e.bytes.length = masked (readLocal s 0 (localOf e.addr) e.bytes.length) e.bytes e.enables) ∧
      (∀ w, (ingressAt s d).waiting = [w] → w.behind = 1 → w.kport = none → pkgOf w.addr = pkgId s → inSlice s (localOf w.addr) w.len →
        inMotion s (localOf w.addr) w.len = false → spanBad s (localOf w.addr) w.len = false →
        ∃ t, exec .hostEntryPerform s = .next t ∧ (ingressAt t d).entries = r ∧ (ingressAt t d).waiting = [] ∧
          t.answers = s.answers ++ [⟨w.tag, some (readLocal t 0 (localOf w.addr) w.len)⟩] ∧
          readLocal t 0 (localOf e.addr) e.bytes.length = masked (readLocal s 0 (localOf e.addr) e.bytes.length) e.bytes e.enables))) ∧
  (∀ (s : State) (d : Nat), performing (.hostEntryPerform d) s → d < 8 → (ingressAt s d).entries = [] → exec .hostEntryPerform s = .next s) ∧
  (∀ (s : State) (a n tag : Nat), performing (.hostRead a n tag) s → s.hostPort = [] → pkgOf a = pkgId s → inSlice s (localOf a) n →
    ((ingressAt s (dieOfSlice (localOf a))).entries = [] → inMotion s (localOf a) n = false →
      ∃ t, exec .hostRead s = .next t ∧ answered s tag a (localOf a) n t) ∧
    ((ingressAt s (dieOfSlice (localOf a))).entries ≠ [] → ∃ t, exec .hostRead s = .next t ∧ t.answers = s.answers ∧
      (ingressAt t (dieOfSlice (localOf a))).waiting = (ingressAt s (dieOfSlice (localOf a))).waiting ++
        [⟨tag, a, n, none, [], (ingressAt s (dieOfSlice (localOf a))).entries.length, s.time / 315⟩])) ∧
  (∀ (s : State) (a n tag : Nat), performing (.hostRead a n tag) s → s.hostPort = [] → unbuffered s a n →
    (s.hostHeld = [] → inMotion s (localOf a) n = false → ∃ t, exec .hostRead s = .next t ∧ answered s tag a (localOf a) n t) ∧
    (s.hostHeld ≠ [] → inMotion s (localOf a) n = false →
      exec .hostRead s = .next { s with hostHeld := s.hostHeld ++ [⟨.read a n tag, s.hostSerial⟩] }) ∧
    (s.hostHeld ≠ [] → inMotion s (localOf a) n = true → ∃ t, exec .hostRead s = .next t ∧ heldInMotion s (.read a n tag) t)) ∧
  (∀ (s : State) (d : Nat), performing (.ingressAgeExpiry d) s → d < 8 →
    ((ingressAt s d).entries = [] → exec .ingressAgeExpiry s = .next s) ∧
    (regRaw s (0x2000200 + d * 0x1000) / 2 ^ 32 % 2 = 0 → exec .ingressAgeExpiry s = .next s) ∧
    (∀ e r, (ingressAt s d).entries = e :: r → regRaw s (0x2000200 + d * 0x1000) / 2 ^ 32 % 2 = 1 →
      let age := max e.tick (ingressAt s d).lastClaim + regRaw s (0x2000200 + d * 0x1000) % 2 ^ 32
      (s.time / 315 < age → exec .ingressAgeExpiry s = .next (atTime (age * 315) (.ingressAgeExpiry d) s)) ∧
      (age ≤ s.time / 315 → s.hostPort = [] → s.hostHeld = [] → (ingressAt s d).waiting = [] → plainEntries s (e :: r) →
        ∃ t, exec .ingressAgeExpiry s = .next t ∧ (ingressAt t d).entries = [] ∧
          t.reports = (record { area := 5, event := 0x0502, tval := d, aux := r.length + 1 } s).reports))) ∧
  (∀ (s : State) (d : Nat) (w : HostWaiting), performing (.hostRequestAgeExpiry d) s → d < 8 →
    let since := w.tick + regRaw s (0x2000200 + d * 0x1000) % 2 ^ 32
    (regRaw s (0x2000200 + d * 0x1000) / 2 ^ 32 % 2 = 1 → exec .hostRequestAgeExpiry s = .next s) ∧
    (regRaw s (0x2000200 + d * 0x1000) / 2 ^ 32 % 2 = 0 → (ingressAt s d).waiting = [w] →
      (since ≤ s.time / 315 → w.kport = none →
        ∃ t, exec .hostRequestAgeExpiry s = .next (record { area := 5, event := 0x0501, tval := d, aux := w.tag } t) ∧
          (ingressAt t d).waiting = [] ∧ (ingressAt t d).entries = (ingressAt s d).entries ∧ t.answers = s.answers ++ [⟨w.tag, none⟩]) ∧
      (s.time / 315 < since → ∃ t, exec .hostRequestAgeExpiry s = .next t ∧ ingressAt t d = ingressAt s d ∧ t.answers = s.answers ∧
        t.reports = s.reports ∧ (since * 315, Happening.hostRequestAgeExpiry d) ∈ t.agenda))) ∧
  (∀ (s : State) (d : Nat) (v : W64), performing (.hwcfgDrain d v) s → d < 8 →
    (v.toNat / 2 ^ 33 % 2 = 1 → s.hostPort = [] → s.hostHeld = [] → (ingressAt s d).waiting = [] → plainEntries s (ingressAt s d).entries →
      ∃ t, exec .hwcfgDrain s = .next t ∧ (ingressAt t d).entries = [] ∧ t.reports = s.reports ∧
        regRaw t (0x2000200 + d * 0x1000) % 2 ^ 33 = v.toNat % 2 ^ 33) ∧
    (v.toNat / 2 ^ 33 % 2 = 0 → ∃ t, exec .hwcfgDrain s = .next t ∧ ingressAt t d = ingressAt s d ∧ t.mem = s.mem ∧
        (s.time, Happening.ingressAgeExpiry d) ∈ t.agenda ∧ (s.time, Happening.hostRequestAgeExpiry d) ∈ t.agenda ∧
        regRaw t (0x2000200 + d * 0x1000) % 2 ^ 33 = v.toNat % 2 ^ 33))

open Sys2Proof.Claims in
/-- R7, R102, R367, R369, R370, R374, R375, R377, R378, R379: the reports of a tick stand in the order of their sources (which source reports a
record, and that they are numbered before the tick is left, is the model's choice, assumption 45); numbered, each takes the next sequence
number, and a record goes to the next place of the platform ring and, about a context of an interface, of that interface's ring, the platform
copy without addresses; it is counted in LOST where the ring is full or disabled; a write of ERRBASE empties its ring; a plain register keeps its
writable bits; a write of KACT acts by its code; a corrected error starts a row test, whose outcome is recorded and, where lasting, takes a spare
row of the bank or, with none left in a scratchpad bank, retires the core; scrub records uncorrectable units; an interleave table is installed,
waits while two versions live until all that was routed under the older has come, and units stop moving once no row of their channels is tested.
A record is read back in memories of canonical form (the invariant of EveryStepKeepsMemoryCanonical). -/
def Obligations.RecordsRegistersAndMemoryHealth : Prop :=
  (∀ (s : State) (r q : Rec), s.reports = [] →
    (record r s).reports = [⟨r.source, s.time / 315, .record r⟩] ∧
    (record q (record r s)).reports =
      if q.source.1 < r.source.1 ∨ (q.source.1 = r.source.1 ∧ q.source.2 < r.source.2) then
        [⟨q.source, s.time / 315, .record q⟩, ⟨r.source, s.time / 315, .record r⟩]
      else [⟨r.source, s.time / 315, .record r⟩, ⟨q.source, s.time / 315, .record q⟩]) ∧
  (∀ s : State, (numberReports s).seq = s.seq + BitVec.ofNat 64 s.reports.length ∧ (numberReports s).reports = []) ∧
  (∀ (s : State) (r : Rec) (n : Nat × Nat) (w : Nat), s.reports = [⟨n, w, .record r⟩] → s.memOk = true →
    (r.ifc = none ∨ r.taskid = 0xFFFFFFFF → ringServes s 64 →
      (numberReports s).seq = s.seq + 1 ∧ ringTook s 64 (r.bytes (s.seq + 1).toNat w false) (numberReports s)) ∧
    (∀ i < 64, r.ifc = some i → r.taskid ≠ 0xFFFFFFFF → ringServes s i → ringServes s 64 → localOf (ringPlace s i) ≠ localOf (ringPlace s 64) →
      (numberReports s).seq = s.seq + 1 ∧ ringTook s i (r.bytes (s.seq + 1).toNat w false) (numberReports s) ∧
        ringTook s 64 (r.bytes (s.seq + 1).toNat w true) (numberReports s))) ∧
  (∀ (s u : State) (r : Rec) (n : Nat × Nat) (w : Nat), s.reports = [⟨n, w, .record r⟩] → u = numberReports s →
    r.ifc = none ∨ r.taskid = 0xFFFFFFFF → ¬ ringRoom s 64 →
    u.seq = s.seq + 1 ∧ u.mem = s.mem ∧ regRaw u 0x2600808 % 2 ^ 32 = regRaw s 0x2600808 % 2 ^ 32 ∧
      regRaw u 0x2600808 / 2 ^ 32 % 2 ^ 16 = min 0xFFFF (regRaw s 0x2600808 / 2 ^ 32 % 2 ^ 16 + 1)) ∧
  (∀ (s : State) (r : Nat) (v : W64), performing (.errbaseWrite r v) s →
    (r < 65 → ∃ t, exec .errbaseWrite s = .next t ∧ regRaw t (0x2600008 + r * 0x20) = 0 ∧
      regRaw t (0x2600000 + r * 0x20) % 32 = v.toNat % 32 ∧ regRaw t (0x2600000 + r * 0x20) / 2 ^ 12 % 2 ^ 44 = v.toNat / 2 ^ 12 % 2 ^ 44) ∧
    (65 ≤ r → exec .errbaseWrite s = .fault .noSuchUnit)) ∧
  (∀ (s : State) (v : W64), performing (.registerWrite 0x2300000 v) s → ∃ t, exec .registerWrite s = .next t ∧
    regRaw t 0x2300000 % 2 ^ 44 = v.toNat % 2 ^ 44 ∧ ∀ a, a ≠ 0x2300000 → regRaw t a = regRaw s a) ∧
  (∀ (s : State) (q : Nat) (v : W64), performing (.registerWrite (0x1000068 + q * 0x1000) v) s → q < 288 →
    (v.toNat / 2 ^ 32 % 4 = 0 → exec .registerWrite s =
      .next (soon (.kactAddBudget q (v.toNat % 2 ^ 32) (BitVec.ofNat 30 (v.toNat / 2 ^ 34 % 2 ^ 30))) s)) ∧
    (v.toNat / 2 ^ 32 % 4 = 1 → exec .registerWrite s = .next (soon (.kactKill q (v.toNat % 2 ^ 32)) s)) ∧
    (v.toNat / 2 ^ 32 % 4 = 2 → exec .registerWrite s = .next (soon (.kactRerun q (v.toNat % 2 ^ 32)) s)) ∧
    (v.toNat / 2 ^ 32 % 4 = 3 → exec .registerWrite s = .next s)) ∧
  (∀ (s : State) (p : MemPlace) (row : Nat), performing (.correctedError p row) s →
    (placeOk p = true → ∃ d l, exec .correctedError s = .next (inTicks d (.rowTestComplete p row l)
        { s with health := { s.health with testing := s.health.testing ++ [(p, row)] }, free := s.free + 1 }) ∧
      (∀ c, p = .channel c ∨ p = .stack c → d ≤ 2400) ∧
      (∀ n b, p = .bank n b → d * 315 ≤ 96 * Config.cycleUnits (coreAt s n).op)) ∧
    (placeOk p = false → exec .correctedError s = .fault .noSuchUnit)) ∧
  (∀ (s : State) (p : MemPlace) (row : Nat) (l : Bool) (s' : State), performing (.rowTestComplete p row l) s → placeOk p = true →
    s' = { s with health := { s.health with testing := s.health.testing.erase (p, row) } } →
    ((p, row) ∉ s.health.testing → exec .rowTestComplete s = .next s') ∧
    ((p, row) ∈ s.health.testing → l = false → exec .rowTestComplete s =
      .next (record { area := 1, event := 0x0101, cid := (placeCore p).map cidOf, tval := placeNumber p, aux := row } s')) ∧
    ((p, row) ∈ s.health.testing → l = true → sparesOf s p row < 16 → exec .rowTestComplete s =
      .next (record { area := 1, event := 0x0102, cid := (placeCore p).map cidOf, tval := placeNumber p
                      aux := row % 2 ^ 32 + sparesOf s p row * 2 ^ 32 }
        { s' with health := { s'.health with spared := s.health.spared ++ [(p, row)] } })) ∧
    ((p, row) ∈ s.health.testing → l = true → 16 ≤ sparesOf s p row →
      ((∀ n b, p ≠ .bank n b) → exec .rowTestComplete s =
        .next (record { area := 1, event := 0x0103, cid := (placeCore p).map cidOf, tval := placeNumber p, aux := row } s')) ∧
      (∀ n b, p = .bank n b → (coreAt s n).act.task.isSome = true →
        ∃ u, exec .rowTestComplete s = .next u ∧ (coreAt u n).retirePending = true ∧ oneReport s u))) ∧
  (∀ (s : State) (u : Nat), performing (.patrolScrub u) s →
    (regionOf (u * 64) ≠ .dram → regionOf (u * 64) ≠ .lpddr → exec .patrolScrub s = .next s) ∧
    (regionOf (u * 64) = .dram ∨ regionOf (u * 64) = .lpddr → u * 64 ∉ s.health.bad → ∃ t, exec .patrolScrub s = .next t ∧ t.mem = s.mem ∧
      (t.health = s.health ∧ t.reports = s.reports ∨ t.health.bad = u * 64 :: s.health.bad ∧ oneReport s t)) ∧
    (u * 64 ∈ s.health.bad → regionOf (u * 64) = .dram → exec .patrolScrub s = .next (record
      { area := 1, event := 0x0104, tval := (u * 64 - 0x4000000000) / 2 ^ 33, addr := pkgId s * 2 ^ 46 + u * 64 } { s with free := s.free + 1 })) ∧
    (u * 64 ∈ s.health.bad → regionOf (u * 64) = .lpddr → exec .patrolScrub s = .next (record
      { area := 1, event := 0x0104, tval := channelOf s.tables.map (u * 64), addr := pkgId s * 2 ^ 46 + u * 64 } { s with free := s.free + 1 }))) ∧
  (∀ (s : State) (a : Nat), performing (.uncorrectable a) s →
    (∀ z, (z = 8 ∧ regionOf a = .slice) ∨ (z = 64 ∧ (regionOf a = .dram ∨ regionOf a = .lpddr)) → ∃ t, exec .patrolScrub s = .next t ∧
      a / z * z ∈ t.health.bad ∧ (∀ b ∈ s.health.bad, b ∈ t.health.bad) ∧ (∀ b ∈ t.health.bad, b ∈ s.health.bad ∨ b = a / z * z) ∧
      t.mem = s.mem ∧ t.reports = s.reports) ∧
    (regionOf a = .aperture ∨ regionOf a = .hole → exec .patrolScrub s = .next s)) ∧
  (∀ (s : State) (m : List Nat), performing (.interleaveInstall m) s →
    (s.tables.old = none → ∃ t, exec .interleaveInstall s = .next t ∧ installed m s.tables.waiting s t) ∧
    (s.tables.old.isSome = true → exec .interleaveInstall s =
      .next { s with tables := { s.tables with waiting := s.tables.waiting ++ [m] } })) ∧
  (∀ s : State, performing .tableDrainComplete s →
    (s.tables.old = none → exec .tableDrainComplete s = .next s) ∧
    (s.tables.old.isSome = true → routedBefore s s.tables.since = true →
      exec .tableDrainComplete s = .next (inTicks 1 .tableDrainComplete s)) ∧
    (s.tables.old.isSome = true → routedBefore s s.tables.since = false → s.tables.waiting = [] →
      exec .tableDrainComplete s = .next { s with tables := { s.tables with old := none } }) ∧
    (∀ m w, s.tables.old.isSome = true → routedBefore s s.tables.since = false → s.tables.waiting = m :: w →
      ∃ t, exec .tableDrainComplete s = .next t ∧ installed m w s t)) ∧
  (∀ s : State, performing .regionDrainComplete s →
    (s.tables.departed = none → exec .tableDrainComplete s = .next s) ∧
    (s.tables.departed.isSome = true → routedBefore s s.tables.regionSince = true →
      exec .tableDrainComplete s = .next (inTicks 1 .regionDrainComplete s)) ∧
    (s.tables.departed.isSome = true → routedBefore s s.tables.regionSince = false → s.tables.toFree = [] →
      (∀ n, (coreAt s n).retirePending = false) →
      exec .tableDrainComplete s = .next { s with tables := { s.tables with departed := none } })) ∧
  (∀ (s : State) (u : Nat), performing (.unitMove u) s →
    (u ∉ s.tables.moving → exec .unitMove s = .next s) ∧
    (u ∈ s.tables.moving → (∀ e ∈ s.health.testing, ∀ c, e.1 ≠ .channel c) →
      exec .unitMove s = .next { s with tables := { s.tables with moving := s.tables.moving.filter (fun x => x != u) } }) ∧
    (u ∈ s.tables.moving → (∃ e ∈ s.health.testing, e.1 = .channel (channelOf s.tables.map (u * 4096))) →
      exec .unitMove s = .next (inTicks 1 (.unitMove u) s)))

/-! ### Happenings: the Lodge -/

namespace Sys2Proof.Claims

/-- R308: from `s` to `t`, measurement `i` has been extended once. -/
def extended (i : Nat) (s t : State) : Prop :=
  ∃ d, t.measurements.getD (i - 1) [] = s.measurements.getD (i - 1) [] ++ [d]

/-- R312: a heartbeat interval is under way: its end is on the agenda, `k` milliseconds after h. -/
def intervalRuns (k h : Nat) (t : State) : Prop :=
  ∃ w, (w, Happening.heartbeatIntervalEnd k) ∈ t.agenda ∧ h + k * 1200000 ≤ w / 315

/-- No interface and no context is told of firmware events, so that a hand-over's events write no memory. -/
def untold (s : State) : Prop := s.interfaces = [] ∧ liveContexts s = []

end Sys2Proof.Claims

open Sys2Proof.Claims in
/-- R307 to R316, R394, R395: an interface follows its states, is bound to free quads only, and is scrubbed with its keys erased before it is unlocked again; reports
answer requests; a tenant key stands in its slot; a hand-over starts only when none is under way and the header verifies, is refused on a state version
outside the image's range, is tried, watched every millisecond, committed after 200 intervals, and falls back with 0xB2 on a missing
heartbeat, where the old instance takes the journal's inputs and is watched in turn; a GO refused while another hand-over is under way lets
STATE read 6 until that one's next step (the model's choice, assumption 60); a cold reset leaves the reset state brought up, a warm reset keeps
the time, the bytes of memory and PKGID; a trunk port that is left with fewer permits cuts its minima, DATA first. -/
def Obligations.TheLodgeServesAndHandsOver : Prop :=
  (∀ (s : State) (r : Nat) (qs as : List Nat), performing (.tdispRequest r (.lock qs as)) s → r < 64 →
    ((interfaceAt s r).st = .configUnlocked → (interfaceAt s r).scrubEnds = none →
      (∀ q ∈ qs, q < 288 ∧ ∀ e ∈ s.interfaces, e.1 ≠ r → q ∉ e.2.quads) →
      exec .tdispRequest s = .next { s with interfaces := assocPut r ⟨.configLocked, qs, as, false, none⟩ s.interfaces }) ∧
    ((interfaceAt s r).st ≠ .configUnlocked → exec .tdispRequest s = .next s)) ∧
  (∀ (s : State) (r : Nat), performing (.tdispRequest r .start) s → r < 64 →
    ((interfaceAt s r).st = .configLocked → (interfaceAt s r).scrubEnds = none →
      exec .tdispRequest s = .next { s with interfaces := assocPut r { interfaceAt s r with st := .run, ran := true } s.interfaces }) ∧
    ((interfaceAt s r).st ≠ .configLocked → exec .tdispRequest s = .next s)) ∧
  (∀ (s : State) (r : Nat), performing (.tdispRequest r .stop) s → r < 64 → (interfaceAt s r).scrubEnds = none →
    ((interfaceAt s r).st = .configUnlocked → exec .tdispRequest s = .next s) ∧
    ((interfaceAt s r).st = .configLocked ∨ (interfaceAt s r).st = .error → (interfaceAt s r).ran = false →
      exec .tdispRequest s = .next { s with interfaces := assocPut r ⟨.configUnlocked, [], [], false, none⟩ s.interfaces }) ∧
    ((interfaceAt s r).st ≠ .configUnlocked → (interfaceAt s r).ran = true → ∃ d t, d ≤ 60000 ∧ exec .tdispRequest s = .next t ∧
      interfaceAt t r = { interfaceAt s r with st := .error, scrubEnds := some (s.time + d * 315) } ∧
      (s.time + d * 315, Happening.tdispRequest r .stop) ∈ t.agenda ∧ t.mem = s.mem ∧
      ((interfaceAt s r).st = .run → regRaw t (0x2500200 + 8 * r) = 0))) ∧
  (∀ (s : State) (r : Nat), performing (.tdispRequest r .error) s → r < 64 → (interfaceAt s r).scrubEnds = none →
    ∃ t, exec .tdispRequest s = .next t ∧ interfaceAt t r = { interfaceAt s r with st := .error } ∧ t.mem = s.mem ∧ t.keys = s.keys ∧
      (∀ x, x ≠ r → interfaceAt t x = interfaceAt s x) ∧ ((interfaceAt s r).st = .run → regRaw t (0x2500200 + 8 * r) = 0)) ∧
  (∀ (s : State) (r w : Nat), performing (.tdispRequest r .stop) s → r < 64 → (interfaceAt s r).scrubEnds = some w → w ≤ s.time → s.reports = [] →
    ∃ t, exec .tdispRequest s = .next t ∧ interfaceAt t r = ⟨.configUnlocked, [], [], false, none⟩ ∧
      (∀ k ∈ t.keys, k.2.iface ≠ some r) ∧
      (∀ c ∈ t.mem, ¬(regionOf c.1 = .slice ∧ lcnOf (sliceCid c.1) / 4 ∈ (interfaceAt s r).quads)) ∧
      (∀ c ∈ s.mem, ¬(regionOf c.1 = .slice ∧ lcnOf (sliceCid c.1) / 4 ∈ (interfaceAt s r).quads) → c ∈ t.mem) ∧
      (s.lcn / 4 ∈ (interfaceAt s r).quads → t.core.act = Context.reset ∧ t.core.shd = Context.reset ∧ t.core.imem = [] ∧
        t.core.cstore0 = [] ∧ t.core.cstore1 = []) ∧
      (s.lcn / 4 ∉ (interfaceAt s r).quads → t.core = s.core)) ∧
  (∀ (s : State) (r w : Nat) (m : TdispMessage), performing (.tdispRequest r m) s → r < 64 → (interfaceAt s r).scrubEnds = some w →
    m ≠ .stop ∨ s.time < w → exec .tdispRequest s = .next s) ∧
  (∀ (s : State) (r : Nat) (m : TdispMessage), performing (.tdispRequest r m) s → 64 ≤ r → exec .tdispRequest s = .fault .noSuchUnit) ∧
  (∀ (s : State) (q : SpdmRequest), performing (.spdmRequest q) s → exec .spdmRequest s = .next { s with answers := s.answers ++ [⟨0, spdmAnswer s q⟩] }) ∧
  (∀ (s : State) (i : Nat), spdmAnswer s (.measurement i) = none ↔ i = 0 ∨ 6 < i) ∧
  (∀ (s : State) (k r x : Nat), performing (.keySlotInstall k r x) s →
    (1 ≤ k → k < 4096 → r < 64 → ∃ t, exec .keySlotInstall s = .next t ∧ (keySlotAt t k).installed = true ∧ (keySlotAt t k).iface = some r ∧ (keySlotAt t k).key = x ∧
      (keySlotAt t k).gen = (keySlotAt s k).gen + 1 ∧ t.mem = s.mem) ∧
    (k = 0 ∨ 4096 ≤ k ∨ 64 ≤ r → exec .keySlotInstall s = .fault .noSuchUnit)) ∧
  (∀ (s : State) (v : W64) (im : FirmwareImage), performing (.fwhoGo v im) s → ∃ u, u = plainRegWrite 0x2500100 v.toNat s ∧
    (v.toNat / 4 % 2 = 0 → exec .fwhoGo s = .next u) ∧ (v.toNat / 4 % 2 = 1 →
    (1 ≤ s.handover.st ∧ s.handover.st ≤ 3 → ∃ t, exec .fwhoGo s = .next t ∧ readReg t 0x2500100 / 8 % 8 = 6 ∧
      t = record { area := 4, event := 0x0401, tval := v.toNat % 4, aux := 2 } { s with handover := { s.handover with refused := true } }) ∧
    (s.handover.st = 0 ∨ 3 < s.handover.st → im.verified = false ∨ im.role ≠ v.toNat % 4 ∨ v.toNat % 4 = 3 →
      exec .fwhoGo s = .next (record { area := 4, event := 0x0401, tval := v.toNat % 4, aux := 0 }
        { u with handover := { u.handover with st := 6, refused := false } })) ∧
    (s.handover.st = 0 ∨ 3 < s.handover.st → im.verified = true → im.role = v.toNat % 4 → im.role < 3 →
      ∃ t d, d ≤ 24000000 ∧ exec .fwhoGo s = .next (inTicks d .handoverTrialStart t) ∧ t.handover.st = 1 ∧ t.handover.role = im.role ∧
        t.handover.image = some im ∧ t.handover.hbok = 0 ∧ t.handover.journal = []))) ∧
  (∀ s : State, performing .handoverTrialStart s → s.handover.image = none → exec .handoverTrialStart s = .next s) ∧
  (∀ (s : State) (im : FirmwareImage), performing .handoverTrialStart s → s.handover.image = some im → s.handover.st = 1 →
    ∃ v t, exec .handoverTrialStart s = .next t ∧ t.handover.sver = v ∧
      (v < im.vmin ∨ im.vmax < v → t.handover.st = 6 ∧ oneReport s t) ∧
      (im.vmin ≤ v → v ≤ im.vmax → t.handover.st = 2 ∧ t.handover.frozen = true ∧ ∃ w, (w, Happening.handoverTrialStart) ∈ t.agenda)) ∧
  (∀ (s : State) (im : FirmwareImage), performing .handoverTrialStart s → s.handover.image = some im → s.handover.st = 2 → untold s →
    s.handover.role < 3 → s.measurements.length = 6 →
    ∃ t, exec .handoverTrialStart s = .next t ∧ t.handover.st = 3 ∧ t.handover.frozen = false ∧ t.handover.instant = s.time / 315 ∧
      t.handover.hbok = 0 ∧ t.handover.taken = s.handover.journal ∧ extended (s.handover.role + 2) s t ∧ extended 6 s t ∧
      intervalRuns 1 (s.time / 315) t) ∧
  (∀ s : State, performing .heartbeat s → exec .heartbeat s = .next { s with handover := { s.handover with beat := true } }) ∧
  (∀ s : State, performing .instanceStops s → exec .heartbeat s = .next { s with handover := { s.handover with stopped := true } }) ∧
  (∀ (s : State) (k : Nat), performing (.heartbeatIntervalEnd k) s → s.time / 315 = s.handover.instant + k * 1200000 → s.handover.st = 3 →
    s.handover.hbok + 1 = k →
    (s.handover.beat = true → s.handover.stopped = false → k < 200 → ∃ t, exec .heartbeatIntervalEnd s = .next t ∧
      t.handover = { s.handover with hbok := k, beat := false, refused := false } ∧ intervalRuns (k + 1) s.handover.instant t) ∧
    (s.handover.beat = true → s.handover.stopped = false → 200 ≤ k → exec .heartbeatIntervalEnd s =
      .next (soon .handoverCommit { s with handover := { s.handover with hbok := k, beat := false, refused := false } })) ∧
    (s.handover.beat = false ∨ s.handover.stopped = true → untold s → s.handover.role < 3 → s.measurements.length = 6 → ∃ t, exec .heartbeatIntervalEnd s = .next t ∧
      t.handover.st = 5 ∧ t.handover.running = s.handover.running ∧ t.handover.watchOld = true ∧ t.handover.taken = s.handover.journal ∧
      t.handover.stopped = false ∧ oneReport s t ∧ extended (s.handover.role + 2) s t ∧ extended 6 s t ∧ intervalRuns 1 (s.time / 315) t)) ∧
  (∀ (s : State) (k : Nat), performing (.heartbeatIntervalEnd k) s → s.time / 315 = s.handover.instant + k * 1200000 → s.handover.st = 5 →
    s.handover.watchOld = true →
    (s.handover.beat = true → s.handover.stopped = false → k < 200 → ∃ t, exec .heartbeatIntervalEnd s = .next t ∧
      t.handover = { s.handover with beat := false } ∧ intervalRuns (k + 1) s.handover.instant t) ∧
    (s.handover.beat = true → s.handover.stopped = false → 200 ≤ k → exec .heartbeatIntervalEnd s =
      .next { s with handover := { s.handover with beat := false, watchOld := false, journal := [] } }) ∧
    (s.handover.beat = false ∨ s.handover.stopped = true → exec .heartbeatIntervalEnd s = .next (soon .oldInstanceHeartbeatMiss s))) ∧
  (∀ (s : State) (k : Nat), performing (.heartbeatIntervalEnd k) s →
    (s.handover.st ≠ 3 ∧ s.handover.st ≠ 5) ∨ s.time / 315 ≠ s.handover.instant + k * 1200000 → exec .heartbeatIntervalEnd s = .next s) ∧
  (∀ (s : State) (im : FirmwareImage), performing .handoverCommit s → s.handover.image = some im →
    (s.handover.st = 3 → s.handover.hbok = 200 → untold s → s.measurements.length = 6 → ∃ t, exec .handoverCommit s = .next t ∧
      t.handover.st = 4 ∧ t.handover.running = s.handover.running.set s.handover.role im.version ∧ t.handover.journal = [] ∧ extended 6 s t) ∧
    (s.handover.st ≠ 3 ∨ s.handover.hbok ≠ 200 → exec .handoverCommit s = .next s)) ∧
  (∀ s : State, performing .oldInstanceHeartbeatMiss s →
    (s.handover.st ≠ 5 ∨ s.handover.watchOld = false → exec .oldInstanceHeartbeatMiss s = .next s) ∧
    (s.handover.st = 5 → s.handover.watchOld = true → 1 ≤ s.handover.role → s.measurements.length = 6 → ∃ t, exec .oldInstanceHeartbeatMiss s = .next t ∧
      oneReport s t ∧ t.handover.taken = s.handover.journal ∧ extended 6 s t ∧ intervalRuns 1 (s.time / 315) t) ∧
    (s.handover.st = 5 → s.handover.watchOld = true → s.handover.role = 0 → ∃ t, exec .oldInstanceHeartbeatMiss s = .next t ∧
      (∀ e ∈ s.interfaces, e.2.st = .run → ∃ x ∈ t.interfaces, x.1 = e.1 ∧ x.2.st = .error) ∧ t.core.act.task = none)) ∧
  (∀ (s : State) (p : BitVec 10) (a : List W64), performing (.coldReset p a []) s → ∃ t, exec .coldReset s = .next t ∧
    { t with regs := [], measurements := [] } = { State.reset with regs := [], measurements := [] } ∧ pkgId t = p.toNat ∧ ∀ w < 18, regRaw t (0x100 + 8 * w) = (a.getD w (BitVec.allOnes 64)).toNat) ∧
  (∀ (s : State) (a : List W64), performing (.warmReset a []) s → ∃ t, exec .warmReset s = .next t ∧ t.time = s.time ∧ pkgId t = pkgId s ∧
    ((∀ e ∈ s.interfaces, e.2.ran = false) → t.mem = (numberReports s).mem ∧ t.seq = (numberReports s).seq) ∧ (s.reports = [] → ∀ c ∈ t.mem, c ∈ s.mem) ∧
    (∀ e ∈ s.interfaces, e.2.ran = true → interfaceAt s e.1 = e.2 → s.reports = [] →
      ∀ c ∈ t.mem, ¬(regionOf c.1 = .slice ∧ lcnOf (sliceCid c.1) / 4 ∈ e.2.quads)) ∧
    t.core.act = Context.reset ∧ t.kiosks = [] ∧ t.interfaces = [] ∧ (∀ k ∈ t.keys, k.2.installed = false) ∧
    t.core.mgrp = s.core.mgrp ∧ t.core.cestall = s.core.cestall ∧ t.accesses = [] ∧ t.bursts = []) ∧
  (∀ (s : State) (p u : Nat) (m : List Nat), performing (.trunkDegraded p u) s → p < 288 → 5 ≤ u → u < 256 →
    m = minimaOf (regRaw s (0x2200000 + p / 36 * 0x1000)) →
    ∃ t c, exec .warmReset s = .next t ∧ assocGet p ⟨0, []⟩ t.trunks = ⟨u, c⟩ ∧ t.mem = s.mem ∧ t.regs = s.regs ∧
      (m.sum ≤ u → c = m ∧ t.reports = s.reports) ∧
      (u < m.sum → oneReport s t ∧ c.length = 5 ∧ c.sum ≤ u ∧ (∀ i < 5, min 1 (m.getD i 0) ≤ c.getD i 0 ∧ c.getD i 0 ≤ m.getD i 0) ∧
        (1 < c.getD 2 0 → ∀ i < 5, i ≠ 2 → c.getD i 0 = m.getD i 0) ∧
        (1 < c.getD 0 0 → ∀ i < 5, 1 ≤ i → i ≠ 2 → c.getD i 0 = m.getD i 0)))

/-! ### Happenings: circuits, flows and streams -/

namespace Sys2Proof.Claims

/-- R279: ticks of a hop and of a backtrack. -/
def hopTicks : Nat := 4

/-- R279, R280: from `s` to `t`, lantern `l` has reserved slot `p`: it holds it and tries its next hop. -/
def slotReserved (l : Lantern) (p : Port) (s t : State) : Prop :=
  ⟨p, l.owner⟩ ∈ t.held ∧ t.held.length = s.held.length + 1 ∧
    (∃ l' ∈ t.lanterns, l'.id = l.id ∧ l'.path = (p, l.cand) :: l.path ∧ l'.back = l.back) ∧
    ∃ w, w = s.time + 4 * 315 ∧ (w, Happening.lanternHop l.id) ∈ t.agenda

/-- R280: what becomes of a lantern's owner when it fails: its flow is held off for four windows, or nothing holds a slot for it. -/
def givenUp (l : Lantern) (t : State) : Prop :=
  (∀ x ∈ t.held, x.owner ≠ l.owner) ∧ (∀ x ∈ t.lanterns, x.owner ≠ l.owner)

/-- R276: one entry of a turnstile at the start of a window. -/
def afterWindow (f : Flow) : Option Flow :=
  if f.st = .counting then (if f.count = 0 then none else some { f with count := 0 })
  else some { f with count := 0, st := match f.st with
    | .heldOff 0 => .counting
    | .heldOff 1 => .counting
    | .heldOff (n + 2) => .heldOff (n + 1)
    | x => x }

/-- R269: uncontended one-way ticks on the Promenade from core `a` to core `b`: 3 for each router on one die, 30 between dies. -/
def promenade (a b : Nat) : Nat :=
  let d (x y : Nat) : Nat := (x - y) + (y - x)
  if a / 144 = b / 144 then 3 * (d (a % 144 / 24) (b % 144 / 24) + d (a % 24 / 4) (b % 24 / 4) + 1) else 30

/-- The active context of core `n` is task `t`'s, and no other core's. -/
def holds (s : State) (n t : Nat) : Prop := activeOn s t = some n ∧ (coreAt s n).act.isTask t = true

/-- The flow entry `i` of quad `q` is `f`. -/
def entryIs (s : State) (q i : Nat) (f : Flow) : Prop := q < 288 ∧ i < (turnstileAt s q).length ∧ flowAt s q i = some f

end Sys2Proof.Claims

open Sys2Proof.Claims in
/-- R273 to R283, R384 to R386, R389: a promoting entry launches one lantern a tick; a lantern reserves a free slot in 4 ticks, goes back on a conflict, gives up all its
slots after three backtracks or 2,048 ticks; its acknowledgement promotes the flow and sends the mark; beats before the mark are held;
the mark lets them perform and is answered by a release notice; windows clear counts and free idle entries; an idle promoted flow is torn
down and its slots are released once every beat has performed; fabric tables are written whole or refused with event 0x0208; a failed
element is recorded and ends the circuits on it; a spare stands in for a failed wavelength while one is left. -/
def Obligations.FlowsArePromotedAndLanternsProbe : Prop :=
  (∀ (s : State) (q i : Nat) (f : Flow), performing (.lanternLaunch q i) s → entryIs s q i f →
    (f.st ≠ .promoting → exec .lanternLaunch s = .next s) ∧
    (f.st = .promoting → s.lanterns = [] → lowerLaunch s q i = false → ∃ t, exec .lanternLaunch s = .next t ∧
      t.lanterns = [⟨s.nextId, .flow q i, lcnOf f.flow.src, lcnOf f.flow.dst, f.flow.label, [], 0, 0, .probe, s.time / 315⟩] ∧
      (s.time + 4 * 315, Happening.lanternHop s.nextId) ∈ t.agenda ∧ (s.time + 2048 * 315, Happening.lanternTimeout s.nextId) ∈ t.agenda)) ∧
  (∀ (s : State) (id : Nat) (l : Lantern), performing (.lanternHop id) s → s.lanterns = [l] → l.id = id → s.agenda = [] →
    (l.st = .probe → l.path = [] → (∀ x ∈ s.held, x.port ≠ .tx l.src) → crossWorks s l.src = true → l.cand = 0 →
      ∃ t, exec .lanternHop s = .next t ∧ slotReserved l (.tx l.src) s t) ∧
    (l.st = .probe → l.path = [] → (s.held.filter (fun x => x.port == .tx l.src)).length = 4 → l.cand = 0 →
      ∃ t, exec .lanternHop s = .next t ∧ givenUp l t) ∧
    (l.st = .probe → l.path.length = 1 → dieOf l.src ≠ dieOf l.dst → l.cand = 0 → trunkSlots s (dieOf l.src) (dieOf l.dst) = 0 → l.back < 3 →
      ∃ t, exec .lanternHop s = .next t ∧ t.held = s.held ∧ t.lanterns = [{ l with back := l.back + 1, st := .retry }] ∧
        (s.time + 4 * 315, Happening.lanternHop id) ∈ t.agenda) ∧
    (∀ p c r, l.st = .retry → l.path = (p, c) :: r → c + 1 < (hopCandidates s { l with path := r, cand := c }).length →
      ∃ t, exec .lanternHop s = .next t ∧ t.held = s.held.erase ⟨p, l.owner⟩ ∧
        t.lanterns = [{ l with path := r, cand := c + 1, st := .probe }] ∧ (s.time + 4 * 315, Happening.lanternHop id) ∈ t.agenda) ∧
    (∀ p c, l.st = .retry → l.path = [(p, c)] → ∃ t, exec .lanternHop s = .next t ∧ givenUp l t) ∧
    (l.st = .probe → l.path.length = 1 → dieOf l.src ≠ dieOf l.dst → l.cand = 0 → trunkSlots s (dieOf l.src) (dieOf l.dst) = 0 → 3 ≤ l.back →
      ∃ t, exec .lanternHop s = .next t ∧ givenUp l t)) ∧
  (∀ (s : State) (id : Nat), performing (.lanternHop id) s → (∀ l ∈ s.lanterns, l.id ≠ id) → exec .lanternHop s = .next s) ∧
  (∀ (s : State) (id : Nat) (l : Lantern) (q i : Nat) (f : Flow), performing (.lanternAck id) s → s.lanterns = [l] → l.id = id → l.st = .ack →
    l.owner = .flow q i → entryIs s q i f →
    (markWaits s (.flow q i) = true → exec .lanternAck s = .next (inTicks 1 (.lanternAck id) s)) ∧
    (markWaits s (.flow q i) = false → ∃ t, exec .lanternAck s = .next t ∧ t.lanterns = [] ∧
      flowAt t q i = some { f with
        st := .promoted, mark := f.offset, released := false, onCircuit := 0, committed := f.offset
        circFree := max s.time (coreAt s (lcnOf f.flow.src)).linkFree + 315 } ∧
      (coreAt t (lcnOf f.flow.src)).linkFree = max s.time (coreAt s (lcnOf f.flow.src)).linkFree + 315 ∧
      (max s.time (coreAt s (lcnOf f.flow.src)).linkFree + promenade (lcnOf f.flow.src) (lcnOf f.flow.dst) * 315,
        Happening.markArrival f.flow f.offset) ∈ t.agenda ∧
      (lcnOf f.flow.src / 144 ≠ lcnOf f.flow.dst / 144 → (permitsAt s (lcnOf f.flow.dst / 4)).length = 5 →
        (permitsAt t (lcnOf f.flow.dst / 4)).getD 3 (0, 0) =
          (((permitsAt s (lcnOf f.flow.dst / 4)).getD 3 (0, 0)).1 + 1, ((permitsAt s (lcnOf f.flow.dst / 4)).getD 3 (0, 0)).2)))) ∧
  (∀ (s : State) (id : Nat), performing (.lanternAck id) s → (∀ l ∈ s.lanterns, l.id ≠ id) → exec .lanternAck s = .next s) ∧
  (∀ (s : State) (id : Nat), performing (.lanternTimeout id) s →
    ((∀ l ∈ s.lanterns, l.id ≠ id) → exec .lanternTimeout s = .next s) ∧
    (∀ l q i f, s.lanterns.find? (fun x => x.id == id) = some l → l.owner = .flow q i → entryIs s q i f →
      ∃ t, exec .lanternTimeout s = .next t ∧ oneReport s t ∧ givenUp l t ∧ flowAt t q i = some { f with st := .heldOff 4 })) ∧
  (∀ (s : State) (id : Nat) (b : Burst) (f : FlowId) (o : Nat) (l : Landing), performing (.circuitBeatArrival id) s →
    s.bursts.find? (fun b => b.id == id) = some b → b.circuit = true → b.flow = some (f, o) → landingOf s f = some l → l.marked = false →
    (b.beats + 1 < 1 + (b.len + 63) / 64 → exec .circuitBeatArrival s = .next (inTicks 1 (.circuitBeatArrival id) { s with
      bursts := s.bursts.map (fun x => if x.id == b.id then { b with beats := b.beats + 1 } else x)
      landings := s.landings.map (fun x => if x.flow == l.flow then { l with buffer := l.buffer + 64 } else x) })) ∧
    (b.beats + 1 = 1 + (b.len + 63) / 64 → behindCircuit s b = false → b.rel = none → exec .circuitBeatArrival s = .next { s with
      bursts := s.bursts.map (fun x => if x.id == b.id then { b with beats := b.beats + 1 } else x)
      landings := s.landings.map (fun x => if x.flow == l.flow then
        { l with buffer := l.buffer + 64, held := l.held ++ [{ b with beats := b.beats + 1 }] } else x) }) ∧
    (1 + (b.len + 63) / 64 ≤ b.beats → behindCircuit s b = true → exec .circuitBeatArrival s = .next (inTicks 1 (.circuitBeatArrival id) s)) ∧
    (1 + (b.len + 63) / 64 ≤ b.beats → behindCircuit s b = false → b.rel = none → exec .circuitBeatArrival s =
      .next { s with landings := s.landings.map (fun x => if x.flow == l.flow then { l with held := l.held ++ [b] } else x) })) ∧
  (∀ (s : State) (id : Nat), performing (.circuitBeatArrival id) s → (∀ b ∈ s.bursts, b.id ≠ id) → exec .circuitBeatArrival s = .next s) ∧
  (∀ (s : State) (f : FlowId) (m : Nat), performing (.markArrival f m) s →
    (landingOf s f = none → exec .markArrival s = .next s) ∧
    (∀ l b o, landingOf s f = some l → b ∈ s.bursts → b.circuit = false → b.flow = some (f, o) → flowBefore o m = true →
      exec .markArrival s = .next (inTicks 1 (.markArrival f m) s)) ∧
    (∀ l, landingOf s f = some l → (∀ b ∈ s.bursts, b.circuit = true) → onItsCircuit s l = false →
      ∃ t, exec .markArrival s = .next t ∧ landingOf t f = none ∧ t.bursts = s.bursts ∧
        ∀ b ∈ l.held, (s.time, Happening.circuitBeatArrival b.id) ∈ t.agenda) ∧
    (∀ l, landingOf s f = some l → s.bursts = [] → l.held = [] → onItsCircuit s l = true →
      exec .markArrival s = .next (inTicks (promenade (lcnOf f.dst) (lcnOf f.src)) (.releaseNotice f) { s with landings := s.landings.map (fun x =>
        if x.flow == l.flow then { l with marked := true, held := [], upTo := m, notified := m, buffer := 0 } else x) }))) ∧
  (∀ (s : State) (f : FlowId) (i : Nat) (v : Flow), performing (.releaseNotice f) s → entryOf s (quadOf (lcnOf f.src)) f = some i →
    entryIs s (quadOf (lcnOf f.src)) i v → ∃ t, exec .releaseNotice s = .next t ∧
      (v.st = .promoted → flowAt t (quadOf (lcnOf f.src)) i = some { v with released := true }) ∧
      (v.st = .counting → flowAt t (quadOf (lcnOf f.src)) i = some v)) ∧
  (∀ (s : State) (q i o : Nat) (f : Flow), performing (.commitNotice q i o) s → entryIs s q i f →
    ∃ t, exec .commitNotice s = .next t ∧ (f.st = .promoted → flowAt t q i = some { f with
      committed := let d := (o % 2 ^ 32 + 2 ^ 32 - f.committed % 2 ^ 32) % 2 ^ 32; if 0 < d ∧ d < 2 ^ 31 then o else f.committed }) ∧
      (f.st = .counting → flowAt t q i = some f) ∧ t.mem = s.mem) ∧
  (∀ s : State, performing .turnstileWindow s → ∃ t, exec .turnstileWindow s = .next t ∧
    t.turnstiles = s.turnstiles.map (fun x => (x.1, x.2.map (fun o => o.bind afterWindow))) ∧
    (s.time + 4096 * 315, Happening.turnstileWindow) ∈ t.agenda ∧
    ∀ x ∈ s.turnstiles, ∀ i f, i < x.2.length → x.2.getD i none = some f → f.st = .promoted → f.count = 0 →
      ∃ w, (w, Happening.flowDemotion x.1 i) ∈ t.agenda) ∧
  (∀ (s : State) (q i : Nat) (f : Flow), performing (.flowDemotion q i) s → entryIs s q i f →
    (f.st ≠ .promoted → exec .flowDemotion s = .next s) ∧
    (f.st = .promoted → ∃ t, exec .flowDemotion s = .next t ∧ flowAt t q i = some { f with st := .demoting } ∧
      (s.time + 2 * promenade (lcnOf f.flow.dst) (lcnOf f.flow.src) * 315, Happening.teardownAck q i) ∈ t.agenda)) ∧
  (∀ (s : State) (q i : Nat) (f : Flow), performing (.teardownAck q i) s → entryIs s q i f → f.st = .demoting →
    (circuitBusy s f.flow = true → exec .teardownAck s = .next (inTicks 1 (.teardownAck q i) s)) ∧
    (circuitBusy s f.flow = false → ∃ t, exec .teardownAck s = .next t ∧ flowAt t q i = some { f with st := .counting, count := 0 } ∧
      (∀ x ∈ t.held, x.owner ≠ .flow q i) ∧ ∀ x ∈ t.landings, x.flow ≠ f.flow)) ∧
  (∀ (s : State) (d : Nat) (v : W64), performing (.fpermWrite d v) s → d < 8 →
    let sum := v.toNat % 2 ^ 8 + v.toNat / 2 ^ 8 % 2 ^ 8 + v.toNat / 2 ^ 16 % 2 ^ 8 + v.toNat / 2 ^ 24 % 2 ^ 8 + v.toNat / 2 ^ 32 % 2 ^ 8
    (256 < sum → exec .fpermWrite s = .next (record { area := 2, event := 0x0208, tval := 0x2200000 + d * 0x1000, aux := v.toNat } s)) ∧
    (sum ≤ 256 → ∃ t, exec .fpermWrite s = .next t ∧ regRaw t (0x2200000 + d * 0x1000) % 2 ^ 48 = v.toNat % 2 ^ 48)) ∧
  (∀ (s : State) (d e : Nat) (v : W64), performing (.conntabWrite d e v) s → d < 8 → e < 8 →
    let others := (((List.range 8).filter (fun x => x != e)).map (trunkSlots s d)).sum
    (d = e → exec .conntabWrite s = .next s) ∧
    (d ≠ e → 12 < others + v.toNat % 16 → exec .conntabWrite s =
      .next (record { area := 2, event := 0x0208, tval := 0x2200100 + d * 0x1000 + 8 * e, aux := v.toNat } s)) ∧
    (d ≠ e → others + v.toNat % 16 ≤ 12 → ∃ t, exec .conntabWrite s = .next t ∧ trunkSlots t d e = v.toNat % 16 ∧ t.held = s.held)) ∧
  (∀ (s : State) (d k : Nat), performing (.glasshouseElementFailure d .trunkSlot k) s → d < 8 → k < 12 → s.held = [] →
    ∃ t, exec .glasshouseElementFailure s = .next t ∧ oneReport s t ∧ (glassAt t d).deadSlots = k :: (glassAt s d).deadSlots ∧
      ∀ e, freeTrunk t d e ≠ some (.trunk d e k)) ∧
  (∀ (s : State) (d e k : Nat) (o : CircuitOwner), performing (.glasshouseElementFailure d .trunkSlot k) s → d < 8 → k < 12 →
    ⟨.trunk d e k, o⟩ ∈ s.held → ∃ t, exec .glasshouseElementFailure s = .next t ∧ oneReport s t ∧ t.held = s.held ∧
      ((s.time / 315 + 1) * 315, o.fails) ∈ t.agenda ∧ ∀ w n h, o = .handle n h → (w, Happening.segmentCommit n h) ∉ t.agenda) ∧
  (∀ (s : State) (t n h : Nat), performing (.circuitFails t h) s →
    ((∀ x ∈ s.held, x.owner ≠ .handle t h) → exec .glasshouseElementFailure s = .next s) ∧
    ((∃ x ∈ s.held, x.owner = .handle t h) → (∀ l ∈ s.lanterns, l.owner ≠ .handle t h) → holds s n t →
      ((coreAt s n).act.handle h).st = .opened → ((coreAt s n).act.handle h).running = false →
      ∃ u, exec .glasshouseElementFailure s = .next u ∧ ((coreAt u n).act.handle h).st = .lost ∧ (∀ x ∈ u.held, x.owner ≠ .handle t h) ∧
        ∀ m r, ((coreAt s n).act.handle h).streams = m :: r →
          ⟨0x89, BitVec.ofNat 64 (h + m.committed * 256), m.order, 0⟩ ∈ (coreAt u n).act.deferred)) ∧
  (∀ (s : State) (q i : Nat) (f : Flow), performing (.flowFails q i) s → entryIs s q i f → (∃ x ∈ s.held, x.owner = .flow q i) →
    (∀ l ∈ s.lanterns, l.owner ≠ .flow q i) → s.bursts = [] → s.landings = [] →
    ∃ t, exec .glasshouseElementFailure s = .next t ∧ flowAt t q i = some { f with st := .heldOff 4 } ∧ ∀ x ∈ t.held, x.owner ≠ .flow q i) ∧
  (∀ (s : State) (d k : Nat), performing (.glasshouseElementFailure d .wavelength k) s → d < 8 → k < 60 → s.held = [] →
    k ∉ (glassAt s d).deadWaves → ∃ t, exec .glasshouseElementFailure s = .next t ∧ k ∈ (glassAt t d).deadWaves ∧
      (∀ w r, (glassAt s d).spares = w :: r → w ≠ k → (w, k / 5) ∈ (glassAt t d).standIn ∧ (glassAt t d).deadSlots = (glassAt s d).deadSlots) ∧
      ((glassAt s d).spares = [] → (glassAt t d).deadSlots = k / 5 :: (glassAt s d).deadSlots)) ∧
  (∀ (s : State) (d k : Nat) (e : GlassElement), performing (.glasshouseElementFailure d e k) s → elementCount e ≤ k →
    exec .glasshouseElementFailure s = .fault .noSuchUnit)

namespace Sys2Proof.Claims

/-- R263: the bytes of the next segment of a stream. -/
def nextSegment (m : Stream) : Nat := min 4096 (m.len - m.committed)

/-- R112, R257: the copy command an engine runs may issue: what it comes after has performed. -/
def runs (s : State) (n : Nat) (e : Engine) (r : Running) : Prop := ((coreAt s n).engine e).running = some r

/-- R26, R257, R284: a burst of `len` bytes goes whole by one route: these are all its pieces, none of them under an erased key. -/
def oneRoute (s : State) (ps : List Piece) (len : Nat) : Prop :=
  (∀ p ∈ ps, 0 < p.len) ∧ (ps.map Piece.len).sum = len ∧ routeLen s ps = len ∧ erasedKey s ps = none

/-- R112, R257: the running command issues a burst of `len` bytes next, a whole one, for a context `c`. -/
def mayIssue (s : State) (r : Running) (c : Context) (len : Nat) : Prop :=
  copyOrdered s r = true ∧ r.issued = false ∧ r.part = none ∧ ctxOf s r.cmd.taskid = some c ∧
    len = min (r.cmd.row - r.off) (512 - nestAddr r.cmd.staging.dst r.idx r.cmd.staging.ds r.off % 512) ∧ 0 < len

/-- R374: burst `b` finds no entry of the region table freed since it was sent. -/
def currentTables (s : State) (b : Burst) : Prop := s.tables.departed = none ∨ s.tables.regionSince ≤ b.id

/-- R272: the permits of class `c` held of a port, and the same with one more of the reserved or the shared part. -/
def heldOf (s : State) (port c : Nat) : Nat × Nat := (permitsAt s port).getD c (0, 0)
def oneMore (shared : Bool) (h : Nat × Nat) : Nat × Nat := if shared then (h.1, h.2 + 1) else (h.1 + 1, h.2)

end Sys2Proof.Claims

open Sys2Proof.Claims in
/-- R112, R114, R257 to R264, R371 to R373, R385: a free engine starts the command at its buffer's head when its tick has come; it issues bursts of at most 512 bytes that
end at a multiple of 512 of the destination, in nest order; a failing translation defers 0x80 with channel and address and ends the
command; a burst goes out over its core's link, one flit a tick, and to another die under permits; it performs at its destination, fills
its units and counts; a complete command frees the engine; a stream of an open handle
sends segments of 4,096 bytes, each performed and counted whole, and after the last performs its release; a lease that has run out makes the handle LOST with a deferred
0x89 at the committed offset. -/
def Obligations.CopiesAndStreamsMoveBytes : Prop :=
  (∀ (s : State) (n : Nat) (e : Engine) (k : Command) (r : List Command), performing (.copyCommandStart n e) s → n < 1152 →
    ((coreAt s n).engine e).running = none → ((coreAt s n).engine e).buffer = k :: r →
    (k.tick * 315 ≤ s.time → ∃ t v, exec .copyCommandStart s = .next t ∧ runs t n e v ∧ v.cmd = k ∧ v.idx = List.replicate 5 0 ∧ v.off = 0 ∧
      ((coreAt t n).engine e).buffer = r ∧ ∃ w, (w, Happening.copyBurst n e) ∈ t.agenda) ∧
    (s.time < k.tick * 315 → exec .copyCommandStart s = .next s)) ∧
  (∀ (s : State) (n : Nat) (e : Engine), performing (.copyCommandStart n e) s → n < 1152 → ((coreAt s n).engine e).running.isSome = true →
    exec .copyCommandStart s = .next s) ∧
  (∀ (s : State) (n : Nat) (e : Engine), performing (.copyBurst n e) s → n < 1152 →
    (((coreAt s n).engine e).running = none → exec .copyBurst s = .next s) ∧
    (∀ r, runs s n e r → copyOrdered s r = false → exec .copyBurst s = .next (inTicks 1 (.copyBurst n e) s))) ∧
  (∀ (s : State) (n : Nat) (e : Engine) (r : Running) (c : Context) (len : Nat) (dp : List Piece), performing (.copyBurst n e) s → n < 1152 → runs s n e r →
    mayIssue s r c len → r.cmd.staging.fill = true →
    copyPieces s n (c.putStw 2 1 (b2n r.cmd.priv)) .write (chunks (nestAddr r.cmd.staging.dst r.idx r.cmd.staging.ds r.off) len) = .ok dp →
    oneRoute s dp len → copyStalls s n (c.putStw 2 1 (b2n r.cmd.priv)) (some (chanIdx e r.cmd.ch)) dp = false →
    ∃ t b, exec .copyBurst s = .next t ∧ b ∈ t.bursts ∧ t.bursts.length = s.bursts.length + 1 ∧ b.dst = dp ∧ b.len = len ∧ b.bytes = List.replicate len 0 ∧
      b.taskid = r.cmd.taskid ∧ b.stage = 1 ∧ b.last = true ∧ b.whole.len = len ∧ (∃ w, (w, Happening.burstPerform b.id) ∈ t.agenda) ∧
      t.mem = s.mem) ∧
  (∀ (s : State) (n : Nat) (e : Engine) (r : Running) (c : Context) (len : Nat) (sp dp : List Piece), performing (.copyBurst n e) s → n < 1152 →
    runs s n e r → mayIssue s r c len → r.cmd.staging.fill = false →
    copyPieces s n (c.putStw 2 1 (b2n r.cmd.priv)) .read (chunks (nestAddr r.cmd.staging.src r.idx r.cmd.staging.ss r.off) len) = .ok sp →
    copyPieces s n (c.putStw 2 1 (b2n r.cmd.priv)) .write (chunks (nestAddr r.cmd.staging.dst r.idx r.cmd.staging.ds r.off) len) = .ok dp →
    oneRoute s sp len → oneRoute s dp len → (∀ p ∈ sp, pkgOf p.pa = pkgId s) →
    (copyStalls s n (c.putStw 2 1 (b2n r.cmd.priv)) none sp = true → exec .copyBurst s = .next (inTicks 1 (.copyBurst n e) s)) ∧
    (copyStalls s n (c.putStw 2 1 (b2n r.cmd.priv)) none sp = false →
      copyStalls s n (c.putStw 2 1 (b2n r.cmd.priv)) (some (chanIdx e r.cmd.ch)) dp = false →
      ∃ t b, exec .copyBurst s = .next t ∧ b ∈ t.bursts ∧ t.bursts.length = s.bursts.length + 1 ∧ b.src = sp ∧ b.dst = dp ∧ b.len = len ∧
        b.taskid = r.cmd.taskid ∧ b.stage = 0 ∧ b.last = true ∧ b.whole.len = len ∧ (∃ w, (w, Happening.burstPerform b.id) ∈ t.agenda) ∧
        t.mem = s.mem)) ∧
  (∀ (s : State) (b : Burst) (p : Piece), performing (.burstPerform b.id) s → s.bursts = [b] → b.stage = 0 → b.src = [p] → pkgOf p.pa = pkgId s →
    (inMotion s (localOf p.pa) p.len = true → exec .burstPerform s = .next (inTicks 1 (.burstPerform b.id) s)) ∧
    (inMotion s (localOf p.pa) p.len = false → spanBad s (localOf p.pa) p.len = false → ∃ t, exec .burstPerform s = .next t ∧
      t.bursts = [{ b with bytes := readLocal s p.key (localOf p.pa) p.len, stage := 1 }] ∧
      (∃ w, (w, Happening.burstPerform b.id) ∈ t.agenda) ∧ t.mem = s.mem)) ∧
  (∀ (s : State) (n t : Nat) (e : Engine) (r : Running) (c : Context) (len a : Nat) (x : BitVec 8), performing (.copyBurst n e) s → n < 1152 → runs s n e r →
    mayIssue s r c len → r.cmd.taskid = t → holds s n t → r.cmd.staging.fill = true →
    copyPieces s n (c.putStw 2 1 (b2n r.cmd.priv)) .write (chunks (nestAddr r.cmd.staging.dst r.idx r.cmd.staging.ds r.off) len) = .error (x, a) →
    x ∉ [0x6B#8, 0xA0#8, 0xA2#8, 0xB1#8] →
    ∃ u, exec .copyBurst s = .next u ∧
      ⟨0x80, BitVec.ofNat 64 (r.cmd.ch + a % 2 ^ 56 * 256), r.cmd.order, nestAddr r.cmd.staging.dst r.idx r.cmd.staging.ds r.off⟩ ∈
        (coreAt u n).act.deferred ∧ u.bursts = s.bursts ∧
      (∀ v, runs u n e v → v.issued = true ∧ v.faulted = true) ∧
      ∀ k ∈ ((coreAt u n).engine e).buffer, ¬(k.taskid = t ∧ k.ch = r.cmd.ch)) ∧
  (∀ (s : State) (id : Nat), performing (.burstPerform id) s → (∀ b ∈ s.bursts, b.id ≠ id) → exec .burstPerform s = .next s) ∧
  (∀ (s : State) (b : Burst) (p : Piece) (n : Nat), performing (.burstPerform b.id) s → s.bursts = [b] → b.stage = 2 → b.circuit = false → b.flow = none →
    b.rel = none → b.bind = .none → b.last = true → currentTables s b → b.dst = [p] → b.len = p.len → b.bytes.length = p.len → p.inMemory s → inMotion s (localOf p.pa) p.len = false → pkgOf p.pa = pkgId s →
    partialBad s (localOf p.pa) p.len = false → s.memOk = true → holds s n b.taskid → regionOf (localOf p.pa) = .slice →
    ∃ t, exec .burstPerform s = .next t ∧ t.bursts = [] ∧ readLocal t p.key (localOf p.pa) p.len = b.bytes ∧
      (coreAt t n).act.copied = (coreAt s n).act.copied.set (chanIdx b.engine b.ch)
        (((coreAt s n).act.copied.getD (chanIdx b.engine b.ch) 0 + b.whole.len) % 2 ^ 48)) ∧
  (∀ (s : State) (b : Burst) (p : Piece) (m : Nat), performing (.burstPerform b.id) s → s.bursts = [b] → b.stage = 1 → b.label = 0 → b.flow = none →
    b.dst = [p] → pkgOf p.pa = pkgId s → burstCore s b = some m →
    (b.beats = 0 → s.time < (coreAt s b.lcn).linkFree → exec .burstPerform s = .next (atTime (coreAt s b.lcn).linkFree (.burstPerform b.id) s)) ∧
    (b.beats = 0 → (coreAt s b.lcn).linkFree ≤ s.time → m / 144 = b.lcn / 144 → ∃ t c, exec .burstPerform s = .next t ∧ t.bursts = [c] ∧
      c.id = b.id ∧ c.stage = 2 ∧ c.circuit = false ∧ (coreAt t b.lcn).linkFree = s.time + (1 + (b.len + 63) / 64) * 315 ∧
      (s.time + ((b.len + 63) / 64 + promenade b.lcn m) * 315, Happening.burstPerform b.id) ∈ t.agenda) ∧
    ((b.beats = 0 → (coreAt s b.lcn).linkFree ≤ s.time) → m / 144 ≠ b.lcn / 144 → grantPermit s (m / 4) .data = none →
      exec .burstPerform s = .next (inTicks 1 (.burstPerform b.id) s)) ∧
    (∀ g, (b.beats = 0 → (coreAt s b.lcn).linkFree ≤ s.time) → m / 144 ≠ b.lcn / 144 → grantPermit s (m / 4) .data = some g →
      (permitsAt s (m / 4)).length = 5 → ∃ t c, exec .burstPerform s = .next t ∧ t.bursts = [c] ∧ c.id = b.id ∧
        heldOf t (m / 4) 2 = oneMore g (heldOf s (m / 4) 2) ∧ (s.time + 30 * 315, Happening.permitReturn (m / 4) 2 g) ∈ t.agenda ∧
        (coreAt t b.lcn).linkFree = s.time + 315 ∧
        (b.beats + 1 < 1 + (b.len + 63) / 64 → c.stage = 1 ∧ c.beats = b.beats + 1 ∧ (s.time + 315, Happening.burstPerform b.id) ∈ t.agenda) ∧
        (1 + (b.len + 63) / 64 ≤ b.beats + 1 → c.stage = 2 ∧ (s.time + 30 * 315, Happening.burstPerform b.id) ∈ t.agenda))) ∧
  (∀ (s : State) (port c : Nat) (g : Bool), performing (.permitReturn port c g) s → port < 288 → c < (permitsAt s port).length →
    0 < (if g then (heldOf s port c).2 else (heldOf s port c).1) →
    ∃ t, exec .burstPerform s = .next t ∧ oneMore g (heldOf t port c) = heldOf s port c ∧ ∀ k, k ≠ c → heldOf t port k = heldOf s port k) ∧
  (∀ (s : State) (n : Nat) (e : Engine) (r : Running), performing (.copyCommandComplete n e) s → n < 1152 → runs s n e r →
    (r.issued = true → r.outstanding = 0 → ((coreAt s n).engine e).buffer = [] →
      ∃ t, exec .copyCommandComplete s = .next t ∧ ((coreAt t n).engine e).running = none) ∧
    (r.issued = false ∨ 0 < r.outstanding → exec .copyCommandComplete s = .next s)) ∧
  (∀ (s : State) (t h n : Nat) (m : Stream) (q : List Stream), performing (.streamStart t h) s → holds s n t → h < (coreAt s n).act.handles.length →
    ((coreAt s n).act.handle h).streams = m :: q →
    (mayStream s n t h = false → exec .streamStart s = .next s) ∧
    (mayStream s n t h = true → m.committed < m.len → ∃ u d, exec .streamStart s = .next u ∧
      ((coreAt u n).act.handle h) = { (coreAt s n).act.handle h with running := true } ∧
      d + 1 = handleTicks n ((coreAt s n).act.handle h) + (nextSegment m + 63) / 64 ∧ (s.time + d * 315, Happening.segmentCommit t h) ∈ u.agenda) ∧
    (mayStream s n t h = true → m.len ≤ m.committed → m.rel = true → mayRelease s t m.cid (m.scope == .pod) = false →
      ∃ u, exec .streamStart s = .next u ∧ ((coreAt u n).act.handle h).streams = m :: q ∧
        (s.time + 315, Happening.streamStart t h) ∈ u.agenda) ∧
    (mayStream s n t h = true → m.len ≤ m.committed → m.rel = false ∨ mayRelease s t m.cid (m.scope == .pod) = true → q ≠ [] →
      ∃ u, exec .streamStart s = .next u ∧ ((coreAt u n).act.handle h).streams = q)) ∧
  (∀ (s : State) (t h : Nat), performing (.streamStart t h) s → activeOn s t = none → exec .streamStart s = .next s) ∧
  (∀ (s : State) (t h n : Nat) (m : Stream), performing (.segmentCommit t h) s → holds s n t → h < (coreAt s n).act.handles.length →
    ((coreAt s n).act.handle h).streams = [m] → ((coreAt s n).act.handle h).running = true → ((coreAt s n).act.handle h).expired = false →
    (coreAt s n).act.ending = none → m.bind = .none → m.committed + nextSegment m < m.len → segmentStop s n (nextSegment m) m = none →
    let own := sliceBase (cidOf n) + m.src + m.committed
    let waits := claimPending s t m.cid || rowTested s (localOf m.dst + m.committed) (nextSegment m) || rowTested s own (nextSegment m) ||
      copyStalls s n (coreAt s n).act none [⟨pkgId s * 2 ^ 46 + own, nextSegment m, 0⟩]
    (waits = true → exec .segmentCommit s = .next (inTicks 1 (.segmentCommit t h) s)) ∧
    (waits = false → regionOf (localOf m.dst + m.committed) = .slice → ∃ u, exec .segmentCommit s = .next u ∧
      ((coreAt u n).act.handle h).streams = [{ m with committed := m.committed + nextSegment m }] ∧
      u.mem = (writeLocal 0 (localOf m.dst + m.committed) (readLocal s 0 own (nextSegment m)) s).mem)) ∧
  (∀ (s : State) (t h n : Nat), performing (.segmentCommit t h) s → holds s n t → ((coreAt s n).act.handle h).streams = [] →
    exec .segmentCommit s = .next s) ∧
  (∀ (s : State) (t h n : Nat), performing (.circuitLeaseExpiry t h) s → holds s n t → h < (coreAt s n).act.handles.length →
    ((coreAt s n).act.handle h).st = .opened →
    (s.time / 315 < ((coreAt s n).act.handle h).lease → exec .circuitLeaseExpiry s = .next s) ∧
    (((coreAt s n).act.handle h).lease ≤ s.time / 315 → ((coreAt s n).act.handle h).running = true →
      ∃ u, exec .circuitLeaseExpiry s = .next u ∧ ((coreAt u n).act.handle h) = { (coreAt s n).act.handle h with expired := true }) ∧
    (∀ m, ((coreAt s n).act.handle h).lease ≤ s.time / 315 → ((coreAt s n).act.handle h).running = false →
      ((coreAt s n).act.handle h).streams = [m] → ∃ u, exec .circuitLeaseExpiry s = .next u ∧ ((coreAt u n).act.handle h).st = .lost ∧
        ⟨0x89, BitVec.ofNat 64 (h + m.committed * 256), m.order, 0⟩ ∈ (coreAt u n).act.deferred ∧ ∀ x ∈ u.held, x.owner ≠ .handle t h))

/-! ### Happenings: accesses under way, other modules, links, network engines -/

namespace Sys2Proof.Claims

/-- R285, R286: the cap record of a peer after a response of `n` bytes with round trip `rtt`, at tick `now` under UACFG `c`. -/
def afterResponse (c now n rtt : Nat) (v : Peer) : Peer :=
  if c % 2 ^ 16 < rtt then
    if ∀ t, v.lastCut = some t → t + c % 2 ^ 16 ≤ now then
      { v with
        outstanding := v.outstanding - n, acked := 0, lastCut := some now, rose := none
        cap := max ((match v.rose with | some (t, x) => if t = now then x else v.cap | none => v.cap) / 2) (c / 2 ^ 24 % 2 ^ 8 * 1024) }
    else { v with outstanding := v.outstanding - n, acked := v.acked + n }
  else if v.cap ≤ v.acked + n ∧ v.lastCut ≠ some now then
    { v with
      outstanding := v.outstanding - n, acked := 0, rose := some (now, v.cap)
      cap := min (v.cap + c / 2 ^ 16 % 2 ^ 8 * 1024) (c / 2 ^ 32 % 2 ^ 12 * 1024) }
  else { v with outstanding := v.outstanding - n, acked := v.acked + n }

/-- R26: access `a` goes in one part, and no other access under way has its number. -/
def sole (s : State) (a : Access) : Prop := a.parts = [] ∧ ∀ x ∈ s.accesses, x.group = a.group ∨ x.id = a.id → x = a

/-- R382: from `s` to `t`, an access has failed with a cause, and its answer comes at once. -/
def requestFails (a : Access) (code : BitVec 8) (val : Nat) (s t : State) : Prop :=
  (∃ b, accessAt t a.id = some b ∧ b.performed = true ∧ b.failed = some (code, BitVec.ofNat 64 val) ∧ b.order = a.order ∧ b.taskid = a.taskid) ∧
    (s.time, Happening.accessResponse a.id) ∈ t.agenda

/-- R266: the request that an engine holds under a sequence number. -/
def requestAt (s : State) (e q : Nat) : Option NetRequest := (netAt s e).queue.find? (fun r => r.seq == q)

/-- R266: a request after a segment of `k` bytes. -/
def afterNetSegment (r : NetRequest) (k : Nat) : Option NetRequest := if r.done + k < r.len then some { r with done := r.done + k } else none

/-- R358, R367: the active context of core `n` has taken a deferred trap, which concerns address `a`. -/
def deferredOn (n : Nat) (code : BitVec 8) (val : W64) (order a : Nat) (t : State) : Prop := ⟨code, val, order, a⟩ ∈ (coreAt t n).act.deferred

/-- R374: access `a` finds no entry of the region table freed since it was sent. -/
def sentUnder (s : State) (a : Access) : Prop := s.tables.departed = none ∨ s.tables.regionSince ≤ a.id

/-- R103, R104, R115, R116, R251, R363: what an update of a 16-byte word by another package leaves of its bytes; none where its slot refuses it,
or where it is no such update. -/
def updated (w : List Byte) : RemoteOp → Option (List Byte)
  | .arm n sc => some (slotArm n.toNat sc.toNat)
  | .retire => some (slotRetire w)
  | .joinEnd st => some (joinExit w st.toNat)
  | .joinFail c => some (joinFail w c.toNat)
  | .syncCount n => some (syncCount w n)
  | .arrive tx => if slotArmed w = true ∧ leAt w 4 4 ≠ 0 then some (slotUpdate w 1 tx.toInt 0) else none
  | .slotCount n => if slotArmed w then some (slotUpdate w 0 0 n) else none
  | .load _ => none
  | .store _ => none
  | .atomic _ _ _ _ => none
  | .barrier _ => none

/-- R251, R116: a request that counts into a barrier slot. -/
def countsSlot : RemoteOp → Prop
  | .arrive _ => True
  | .slotCount _ => True
  | _ => False

/-- R382: a request for `n` bytes of a slice at `a` that this module serves unless it isolates the package. -/
def mayServe (s : State) (a n : Nat) : Prop :=
  regionOf (localOf a) = .slice ∧ regionOf (localOf a + n - 1) = .slice ∧ inMotion s (localOf a) n = false

/-- R382, R368: the refusal of a request from package `pkg`. -/
def refusedRemote (pkg a : Nat) (s : State) : State := record { area := 2, event := 0x0206, tval := pkg, addr := a, aux := a } s

end Sys2Proof.Claims

open Sys2Proof.Claims in
/-- R107, R219, R335, R382, R387: an access performs at the memory that holds its bytes once those before it have, its answer comes after its
latency and gives its result or its deferred cause; one to another package that no station reaches fails with 0xA0, one without an answer with
0xA1, one on a station taken out of service with 0xA3; a POD release whose context has lost an access to such a station never performs; a request
from another package, of each kind, performs here or is refused with event 0x0206. A join update that fails in another package is recorded
(the model's choice, assumption 46); a BARA at a slot in another package is a release at POD scope (the model's reading, assumption 62). -/
def Obligations.AccessesPerformAndAnswer : Prop :=
  (∀ (s : State) (id : Nat), accessAt s id = none →
    (performing (.accessPerform id) s → exec .accessPerform s = .next s) ∧ (performing (.accessResponse id) s → exec .accessResponse s = .next s)) ∧
  (∀ (s : State) (a : Access), performing (.accessPerform a.id) s → accessAt s a.id = some a → a.performed = true → exec .accessPerform s = .next s) ∧
  (∀ (s : State) (a : Access), performing (.accessPerform a.id) s → accessAt s a.id = some a → a.performed = false → a.pkg = pkgId s →
    mayPerform s (holdsOf s a.taskid) a = false → exec .accessPerform s = .next (inTicks 1 (.accessPerform a.id) s)) ∧
  (∀ (s : State) (a : Access) (p : Piece), performing (.accessPerform a.id) s → accessAt s a.id = some a → a.performed = false → a.pkg = pkgId s →
    mayPerform s (holdsOf s a.taskid) a = true → a.pieces = [p] → sentUnder s a →
    (inMotion s (localOf p.pa) p.len = true → exec .accessPerform s = .next (inTicks 1 (.accessPerform a.id) s)) ∧
    (inMotion s (localOf p.pa) p.len = false →
    (a.op = .load → spanBad s (localOf p.pa) p.len = false → ∃ t, exec .accessPerform s = .next t ∧ t.mem = s.mem ∧
      accessAt t a.id = some { a with performed := true, data := a.data ++ readLocal s p.key (localOf p.pa) p.len, flags := 0, failed := none } ∧
      (s.time + a.latency, Happening.accessResponse a.id) ∈ t.agenda) ∧
    (∀ bs, a.op = .store bs → bs.length = p.len → partialBad s (localOf p.pa) p.len = false → s.memOk = true → p.inMemory s →
      ∃ t, exec .accessPerform s = .next t ∧ StoredAt p bs s t ∧ (s.time + a.latency, Happening.accessResponse a.id) ∈ t.agenda) ∧
    (a.op = .load → spanBad s (localOf p.pa) p.len = true → ∃ t b, exec .accessPerform s = .next t ∧ t.mem = s.mem ∧
      accessAt t a.id = some b ∧ b.failed = some (0x6B, BitVec.ofNat 64 a.va)))) ∧
  (∀ (s : State) (a : Access), a.podRelease s = true → stationLost s a.taskid = true →
    mayPerform s (holdsOf s a.taskid) a = false ∧ mayLeave s a = false) ∧
  (∀ (s : State) (a : Access) (tx : Int) (p : Piece), a.op = .arrive tx → a.rel = true → p ∈ a.pieces → pkgOf p.pa ≠ pkgId s → a.podRelease s = true) ∧
  (∀ (s : State) (a : Access), performing (.accessPerform a.id) s → accessAt s a.id = some a → a.performed = false → a.pieces ≠ [] →
    a.pkg ≠ pkgId s →
    (a.sent = none → mayLeave s a = true → stationFor s a.pkg a.pa = none →
      ∃ t, exec .accessPerform s = .next t ∧ requestFails a 0xA0 a.pkg s t) ∧
    (∀ k, a.sent = none → mayLeave s a = true → stationFor s a.pkg a.pa = some k → peerRoom s a.pkg a.load = false →
      ∃ t, exec .accessPerform s = .next t ∧ (Config.inPod a.pkg = false → requestFails a 0xA0 a.pkg s t) ∧
        (Config.inPod a.pkg = true → t = inTicks 1 (.accessPerform a.id) s)) ∧
    (∀ k, a.sent = none → mayLeave s a = true → stationFor s a.pkg a.pa = some k → peerRoom s a.pkg a.load = true →
      ∃ t b, exec .accessPerform s = .next t ∧ (Config.inPod a.pkg = false → requestFails a 0xA0 a.pkg s t) ∧
        (Config.inPod a.pkg = true → accessAt t a.id = some b ∧ b.sent = some (s.time / 315) ∧ b.performed = false ∧
          (peerAt t a.pkg).outstanding = (peerAt s a.pkg).outstanding + a.load ∧
          (s.time + 1200000 * 315, Happening.remoteTimeout a.id) ∈ t.agenda)) ∧
    (a.sent.isSome = true → ∃ t b, exec .accessPerform s = .next t ∧ accessAt t a.id = some b ∧ b.performed = true ∧ t.mem = s.mem ∧
      (b.failed = none ∨ b.failed = some (0xA2, BitVec.ofNat 64 a.va)))) ∧
  (∀ (s : State) (a : Access), performing (.accessResponse a.id) s → accessAt s a.id = some a → a.performed = false ∨ a.answered = true →
    exec .accessResponse s = .next s) ∧
  (∀ (s : State) (a : Access) (n r z d : Nat) (g : Bool) (x : Result), performing (.accessResponse a.id) s → accessAt s a.id = some a →
    a.performed = true → a.answered = false → sole s a → a.sent = none → a.failed = none → a.ret = .scalar r z g → holds s n a.taskid →
    (coreAt s n).leaving = .no →
    (coreAt s n).act.results.find? (fun x => x.rid == r) = some x → x.dest = .named (.s d) →
    ∃ t, exec .accessResponse s = .next t ∧ accessAt t a.id = none ∧
      (g = false → (coreAt t n).act.sreg = (coreAt s n).act.sreg.set d (BitVec.ofNat 64 (fromBytes (a.data.take z)))) ∧
      (g = true → z = 4 → (coreAt t n).act.sreg = (coreAt s n).act.sreg.set d ((BitVec.ofNat 32 (fromBytes (a.data.take 4))).signExtend 64)) ∧
      ∀ y ∈ (coreAt t n).act.results, y.rid = r → y.due = some (coreAt s n).cycle) ∧
  (∀ (s : State) (a : Access) (n : Nat) (c : BitVec 8) (v : W64), performing (.accessResponse a.id) s → accessAt s a.id = some a →
    a.performed = true → a.answered = false → sole s a → a.sent = none → a.failed = some (c, v) → holds s n a.taskid →
    (a.ret = .none ∨ (∃ r z g, a.ret = .scalar r z g) ∨ (∃ r l g, a.ret = .vector r l g) ∨ (∃ r l, a.ret = .tile r l) →
      (∀ x, a.op ≠ .joinEnd x ∧ a.op ≠ .joinFail x) →
      ∃ t, exec .accessResponse s = .next t ∧ accessAt t a.id = none ∧ deferredOn n c v a.order a.va t) ∧
    (∀ x, a.op = .joinEnd x ∨ a.op = .joinFail x → a.ret = .none → ∃ t r, exec .accessResponse s = .next t ∧ oneReport s t ∧
      (∃ w ∈ t.reports, w.body = .record r) ∧ r.cause = c.toNat ∧ r.taskid = a.taskid ∧ r.tval = v.toNat ∧ r.addr = a.va) ∧
    (∀ tag, a.ret = .host tag true → (∀ x, a.op ≠ .joinEnd x ∧ a.op ≠ .joinFail x) → ∃ t, exec .accessResponse s = .next t ∧
      accessAt t a.id = none ∧ t.answers = s.answers ++ [⟨tag, none⟩] ∧ oneReport s t)) ∧
  (∀ (s : State) (id : Nat), performing (.remoteTimeout id) s →
    (accessAt s id = none → (∀ b ∈ s.bursts, b.id ≠ id) → exec .remoteTimeout s = .next s) ∧
    (∀ a, accessAt s id = some a → a.sent.isSome = true → a.answered = false → ∃ t, exec .remoteTimeout s = .next t ∧
      requestFails a 0xA1 a.va s t ∧ (peerAt t a.pkg).outstanding = (peerAt s a.pkg).outstanding - a.load) ∧
    (∀ a, accessAt s id = some a → a.sent = none → exec .remoteTimeout s = .next s)) ∧
  (∀ (s : State) (pkg a n key : Nat), performing (.remoteRequest pkg a (.load n) key) s →
    (regionOf (localOf a) = .hole → exec .remoteRequest s = .next (refusedRemote pkg a s)) ∧
    (mayServe s a n → ∃ t, exec .remoteRequest s = .next t ∧
      (Config.isolates pkg (localOf a) = true ∨ spanBad s (localOf a) n = true → t = refusedRemote pkg a s) ∧
      (Config.isolates pkg (localOf a) = false → spanBad s (localOf a) n = false → t.mem = s.mem ∧ t.core = s.core ∧ t.reports = s.reports)) ∧
    (regionOf (localOf a) = .slice → regionOf (localOf a + n - 1) = .slice → inMotion s (localOf a) n = true →
      exec .remoteRequest s = .next (if Config.isolates pkg (localOf a) then refusedRemote pkg a s
        else inTicks 1 (.remoteRequest pkg a (.load n) key) s))) ∧
  (∀ (s : State) (pkg a key : Nat) (bs : List Byte), performing (.remoteRequest pkg a (.store bs) key) s → mayServe s a bs.length →
    partialBad s (localOf a) bs.length = false → s.memOk = true → (⟨a, bs.length, key⟩ : Piece).inMemory s →
    ∃ t, exec .remoteRequest s = .next t ∧ (Config.isolates pkg (localOf a) = true → t = refusedRemote pkg a s) ∧
      (Config.isolates pkg (localOf a) = false → StoredAt ⟨a, bs.length, key⟩ bs s t)) ∧
  (∀ (s : State) (pkg a key z : Nat) (o : BitVec 7) (w : Bool) (b c : W64), performing (.remoteRequest pkg a (.atomic o w b c) key) s →
    z = (if w then 8 else 4) →
    (remoteAtomic o c = none → exec .remoteRequest s = .next (refusedRemote pkg a s)) ∧
    (∀ op, remoteAtomic o c = some op → mayServe s a z → spanBad s (localOf a) z = false → s.memOk = true → (⟨a, z, key⟩ : Piece).inMemory s →
      (op = .fadd32 → w = false) → ∃ t, exec .remoteRequest s = .next t ∧ (Config.isolates pkg (localOf a) = true → t = refusedRemote pkg a s) ∧
        (Config.isolates pkg (localOf a) = false → StoredAt ⟨a, z, key⟩ (toBytes z (atomicResult (8 * z) op
          (BitVec.ofNat (8 * z) (fromBytes (readLocal s key (localOf a) z))) (b.setWidth (8 * z))).toNat) s t))) ∧
  (∀ (s : State) (pkg a key : Nat) (q : RemoteOp), performing (.remoteRequest pkg a q key) s → mayServe s a 16 → spanBad s (localOf a) 16 = false →
    s.memOk = true → (⟨a, 16, key⟩ : Piece).inMemory s → let old := readLocal s key (localOf a) 16
    (∀ bs, updated old q = some bs → ∃ t, exec .remoteRequest s = .next t ∧ (Config.isolates pkg (localOf a) = true → t = refusedRemote pkg a s) ∧
      (Config.isolates pkg (localOf a) = false → StoredAt ⟨a, 16, key⟩ bs s t)) ∧
    (countsSlot q → updated old q = none → ∃ t, exec .remoteRequest s = .next t ∧ t.mem = s.mem)) ∧
  (∀ (s : State) (pkg a key id : Nat), performing (.remoteRequest pkg a (.barrier id) key) s → let w := regRaw s (barcfgAt .pod 0 id)
    (w.testBit 35 = false ∨ w % 2 ^ 21 = 0 → exec .remoteRequest s = .next s) ∧
    (w.testBit 35 = true → w % 2 ^ 21 ≠ 0 → ∃ t, exec .remoteRequest s = .next t ∧ arrived .pod 0 id (w % 2 ^ 21) 2400 s t))

namespace Sys2Proof.Claims

/-- R289: the slot, 0 or 1, that direction `l` of a link does not transmit with. -/
def idleSlot (s : State) (l : Nat) : Nat := if (linkAt s l).selector then 0 else 1

/-- R290: a key stands in the slot of a link that its transmitter does not use. -/
def idleKeyed (s : State) (l : Nat) : Bool := ((linkAt s l).slots.getD (idleSlot s l) none).isSome

end Sys2Proof.Claims

open Sys2Proof.Claims in
/-- R265, R266, R285, R286, R289, R290, R291, R375, R383, R387, R390: a response adjusts its peer's cap; what goes over a direction of a link counts
under the slot in use, with the key and the bit of that slot, and brings its rotation at 2^40 and its end at 2^41; a key rotation installs, waits
while the slot still holds the key before, switches when the receiver is ready, when flits of that tick that go after the change count under the
new slot, and retires no sooner than 1 ms later; an install that is not confirmed within 10 ms is recorded and tried again; the sixteenth replay of one flit
in a row takes a link out of service, which fails its requests; a network request counts its segments, or ends with 0x8B or 0xA5. -/
def Obligations.LinksKeepCapsAndKeys : Prop :=
  (∀ (s : State) (p n rtt : Nat), performing (.ualinkResponse p n rtt) s → ∃ t, exec .ualinkResponse s = .next t ∧
    peerAt t p = afterResponse (regRaw s 0x2300000) (s.time / 315) n rtt (peerAt s p) ∧ ∀ q, q ≠ p → peerAt t q = peerAt s q) ∧
  (∀ (s t : State) (l n : Nat), t = sendFlits l n s → (linkAt t l).count = (linkAt s l).count + n ∧ (linkAt t l).slots = (linkAt s l).slots ∧
    (linkAt t l).selector = (linkAt s l).selector ∧
    (linkAt t l).flight.head? = some ⟨s.time / 315, (linkAt s l).selector, (linkAt s l).count, n,
      (((linkAt s l).slots.getD (if (linkAt s l).selector then 1 else 0) none).getD 0)⟩ ∧
    ((linkAt s l).count < 2 ^ 40 → 2 ^ 40 ≤ (linkAt s l).count + n → (s.time, Happening.linkKeyRotation l) ∈ t.agenda) ∧
    ((linkAt s l).count < 2 ^ 41 → 2 ^ 41 ≤ (linkAt s l).count + n → (s.time, Happening.keyUseLimit l) ∈ t.agenda)) ∧
  (∀ (s : State) (l : Nat), performing (.linkKeyRotation l) s →
    (l < 32 → (linkAt s l).rotating = true → exec .linkKeyRotation s = .next s) ∧
    (l < 32 → (linkAt s l).rotating = false → idleKeyed s l = true → exec .linkKeyRotation s =
      .next (atTime (max ((linkAt s l).switched + 1200000) (s.time / 315 + 1) * 315) (.linkKeyRotation l) s)) ∧
    (l < 32 → (linkAt s l).rotating = false → idleKeyed s l = false → ∃ t w, exec .linkKeyRotation s = .next t ∧
      linkAt t l = { linkAt s l with
        rotating := true, ready := false, installs := (linkAt s l).installs + 1, installed := s.time / 315
        slots := (linkAt s l).slots.set (idleSlot s l) (some ((linkAt s l).installs + 1)) } ∧
      (s.time + 12000000 * 315, Happening.keyInstallTimeout l) ∈ t.agenda ∧ (w, Happening.keySelectorSwitch l) ∈ t.agenda) ∧
    (32 ≤ l → exec .linkKeyRotation s = .fault .noSuchUnit)) ∧
  (∀ (s : State) (l : Nat), performing (.keySelectorSwitch l) s → l < 32 →
    ((linkAt s l).rotating = false → exec .keySelectorSwitch s = .next s) ∧
    ((linkAt s l).rotating = true → ∃ t w, exec .keySelectorSwitch s = .next t ∧ (linkAt t l).selector = !(linkAt s l).selector ∧
      (linkAt t l).rotating = false ∧ (linkAt t l).retired = false ∧ (linkAt t l).switched = s.time / 315 ∧
      (linkAt t l).slots = (linkAt s l).slots ∧ (w, Happening.keySlotRetire l) ∈ t.agenda ∧
      ((∀ r ∈ (linkAt s l).flight, r.tick ≠ s.time / 315) → (linkAt t l).count = 0) ∧
      (∀ r rs, (linkAt s l).flight = r :: rs → r.tick = s.time / 315 → (linkAt t l).count ≤ r.flits ∧
        (0 < (linkAt t l).count → ∃ x y, (linkAt t l).flight = x :: y :: rs ∧ x.selector = !(linkAt s l).selector ∧ x.first = 0 ∧
          x.flits = (linkAt t l).count ∧ y.selector = r.selector ∧ y.key = r.key ∧ y.flits + x.flits = r.flits)))) ∧
  (∀ (s : State) (l : Nat), performing (.keySlotRetire l) s → l < 32 →
    ((linkAt s l).ready = false → exec .keySlotRetire s = .next s) ∧
    ((linkAt s l).ready = true → s.time / 315 < (linkAt s l).switched + 1200000 → ∃ t, exec .keySlotRetire s = .next t ∧ t.links = s.links ∧
      (((linkAt s l).switched + 1200000) * 315, Happening.keySlotRetire l) ∈ t.agenda) ∧
    ((linkAt s l).ready = true → (linkAt s l).switched + 1200000 ≤ s.time / 315 → ∃ t, exec .keySlotRetire s = .next t ∧
      linkAt t l = { linkAt s l with retired := true, slots := (linkAt s l).slots.set (idleSlot s l) none })) ∧
  (∀ (s : State) (l : Nat), performing (.keyInstallTimeout l) s → l < 32 →
    ((linkAt s l).rotating = false ∨ s.time / 315 < (linkAt s l).installed + 12000000 → exec .keyInstallTimeout s = .next s) ∧
    ((linkAt s l).rotating = true → (linkAt s l).installed + 12000000 ≤ s.time / 315 → ∃ t, exec .keyInstallTimeout s = .next t ∧ oneReport s t ∧
      (linkAt t l).selector = (linkAt s l).selector ∧ (linkAt t l).attempts = (linkAt s l).attempts + 1 ∧
      (linkAt t l).installed = s.time / 315 ∧ (s.time + 12000000 * 315, Happening.keyInstallTimeout l) ∈ t.agenda)) ∧
  (∀ (s : State) (l : Nat), performing (.keyUseLimit l) s → l < 32 → ∃ t, exec .keyUseLimit s = .next t ∧ oneReport s t ∧
    (linkAt t l).count = 2 ^ 41 ∧ (s.time, Happening.stationOutOfService (l % 16)) ∈ t.agenda) ∧
  (∀ (s : State) (l f : Nat), performing (.linkReplay l f) s → l < 32 → ∃ t, exec .linkReplay s = .next t ∧ (linkAt t l).flit = f ∧
    ((linkAt s l).flit = f → (linkAt t l).replays = (linkAt s l).replays + 1) ∧ ((linkAt s l).flit ≠ f → (linkAt t l).replays = 1) ∧
    ((linkAt s l).flit = f → (linkAt s l).replays = 15 → (linkAt s (l % 16)).inService = true →
      (s.time, Happening.stationOutOfService (l % 16)) ∈ t.agenda)) ∧
  (∀ (s : State) (l : Nat), performing (.stationOutOfService l) s → l < 16 →
    ((linkAt s l).inService = false → exec .stationOutOfService s = .next s) ∧
    ((linkAt s l).inService = true → l < 8 → s.accesses = [] → s.bursts = [] → ∃ t, exec .stationOutOfService s = .next t ∧
      (linkAt t l).inService = false ∧ oneReport s t ∧ ∀ p a, stationFor t p a ≠ some l) ∧
    (∀ a, (linkAt s l).inService = true → l < 8 → s.accesses = [a] → s.bursts = [] → a.sent.isSome = true → a.answered = false →
      stationFor s a.pkg a.pa = some l → ∃ t, exec .stationOutOfService s = .next t ∧ (linkAt t l).inService = false ∧ requestFails a 0xA3 l s t) ∧
    (∀ r, (linkAt s l).inService = true → 8 ≤ l → r ∈ (netAt s ((l - 8) / 4)).queue → r.port = l - 8 → ∃ t, exec .stationOutOfService s = .next t ∧
      (linkAt t l).inService = false ∧ (s.time, Happening.networkRequestFailure ((l - 8) / 4) r.seq) ∈ t.agenda)) ∧
  (∀ (s : State) (e q : Nat) (bs : List Byte), performing (.networkSegmentComplete e q bs) s →
    (e < 2 → requestAt s e q = none → exec .networkSegmentComplete s = .next s) ∧
    (∀ r, e < 2 → requestAt s e q = some r → netBehind s r = true → exec .networkSegmentComplete s = .next s) ∧
    (2 ≤ e → exec .networkSegmentComplete s = .fault .noSuchUnit)) ∧
  (∀ (s : State) (e q n k : Nat) (bs : List Byte) (r : NetRequest) (ps : List Piece), performing (.networkSegmentComplete e q bs) s → e < 2 →
    requestAt s e q = some r → netBehind s r = false → holds s n r.taskid → k = min 4096 (r.len - r.done) → 0 < k → r.csw = 0 →
    copyPieces s n (coreAt s n).act (if r.op = 2 then .write else .read) (chunks (r.laddr.toNat + r.done) k) = .ok ps →
    (∀ p ∈ ps, pkgOf p.pa = pkgId s) →
    ((∃ p ∈ ps, inMotion s (localOf p.pa) p.len = true) →
      exec .networkSegmentComplete s = .next (inTicks 1 (.networkSegmentComplete e q bs) s)) ∧
    ((∀ p ∈ ps, inMotion s (localOf p.pa) p.len = false) → erasedKey s ps = none →
      (r.op ≠ 2 → (∀ p ∈ ps, spanBad s (localOf p.pa) p.len = false) → ∃ t, exec .networkSegmentComplete s = .next t ∧ t.mem = s.mem ∧
        requestAt t e q = afterNetSegment r k ∧
        (netAt t e).out = (netAt s e).out ++ [.payload r.seq r.done (ps.flatMap (fun p => readLocal s p.key (localOf p.pa) p.len))]) ∧
      (r.op = 2 → bs.length = k → (∀ p ∈ ps, p.inMemory s) → (∀ p ∈ ps, partialBad s (localOf p.pa) p.len = false) →
        ∃ t, exec .networkSegmentComplete s = .next t ∧ t.mem = (writePieces ps bs s).mem ∧ requestAt t e q = afterNetSegment r k))) ∧
  (∀ (s : State) (e q n k : Nat) (bs : List Byte) (r : NetRequest) (x : BitVec 8 × Nat), performing (.networkSegmentComplete e q bs) s → e < 2 →
    requestAt s e q = some r → netBehind s r = false → holds s n r.taskid → k = min 4096 (r.len - r.done) → 0 < k →
    copyPieces s n (coreAt s n).act (if r.op = 2 then .write else .read) (chunks (r.laddr.toNat + r.done) k) = .error x →
    ∃ t, exec .networkSegmentComplete s = .next t ∧ deferredOn n 0x8B 8 r.order (r.laddr.toNat + r.done) t ∧ requestAt t e q = none) ∧
  (∀ (s : State) (e q n : Nat) (r : NetRequest), performing (.networkRequestFailure e q) s → e < 2 →
    (requestAt s e q = none → exec .networkRequestFailure s = .next s) ∧
    (requestAt s e q = some r → holds s n r.taskid → ∃ t, exec .networkRequestFailure s = .next t ∧
      deferredOn n 0xA5 (BitVec.ofNat 64 q) r.order (r.laddr.toNat + r.done) t ∧ requestAt t e q = none))
end

