-- ==== Sys2Proof/Laws/State.lean ====
section
/-! SUPPORT. What the updates of the state leave alone: one lemma for each field and update, so that no later proof unfolds a
record update. -/

namespace Sys2Proof.Machine

variable (f : Context → Context) (g : Core → Core) (h : SlotCtx → SlotCtx) (s : State)

/-! ### `modAct` -/

@[simp] theorem modAct_time : (modAct f s).time = s.time := rfl
@[simp] theorem modAct_free : (modAct f s).free = s.free := rfl
@[simp] theorem modAct_nextId : (modAct f s).nextId = s.nextId := rfl
@[simp] theorem modAct_seq : (modAct f s).seq = s.seq := rfl
@[simp] theorem modAct_reports : (modAct f s).reports = s.reports := rfl
@[simp] theorem modAct_agenda : (modAct f s).agenda = s.agenda := rfl
@[simp] theorem modAct_happening : (modAct f s).happening = s.happening := rfl
@[simp] theorem modAct_lcn : (modAct f s).lcn = s.lcn := rfl
@[simp] theorem modAct_others : (modAct f s).others = s.others := rfl
@[simp] theorem modAct_regs : (modAct f s).regs = s.regs := rfl
@[simp] theorem modAct_mem : (modAct f s).mem = s.mem := rfl
@[simp] theorem modAct_unitKey : (modAct f s).unitKey = s.unitKey := rfl
@[simp] theorem modAct_keys : (modAct f s).keys = s.keys := rfl
@[simp] theorem modAct_kiosks : (modAct f s).kiosks = s.kiosks := rfl
@[simp] theorem modAct_accesses : (modAct f s).accesses = s.accesses := rfl
@[simp] theorem modAct_bursts : (modAct f s).bursts = s.bursts := rfl
@[simp] theorem modAct_barriers : (modAct f s).barriers = s.barriers := rfl
@[simp] theorem modAct_ingress : (modAct f s).ingress = s.ingress := rfl
@[simp] theorem modAct_hostPort : (modAct f s).hostPort = s.hostPort := rfl
@[simp] theorem modAct_hostHeld : (modAct f s).hostHeld = s.hostHeld := rfl
@[simp] theorem modAct_hostSerial : (modAct f s).hostSerial = s.hostSerial := rfl
@[simp] theorem modAct_answers : (modAct f s).answers = s.answers := rfl
@[simp] theorem modAct_held : (modAct f s).held = s.held := rfl
@[simp] theorem modAct_lanterns : (modAct f s).lanterns = s.lanterns := rfl
@[simp] theorem modAct_turnstiles : (modAct f s).turnstiles = s.turnstiles := rfl
@[simp] theorem modAct_landings : (modAct f s).landings = s.landings := rfl
@[simp] theorem modAct_glass : (modAct f s).glass = s.glass := rfl
@[simp] theorem modAct_trunks : (modAct f s).trunks = s.trunks := rfl
@[simp] theorem modAct_permits : (modAct f s).permits = s.permits := rfl
@[simp] theorem modAct_links : (modAct f s).links = s.links := rfl
@[simp] theorem modAct_peers : (modAct f s).peers = s.peers := rfl
@[simp] theorem modAct_net0 : (modAct f s).net0 = s.net0 := rfl
@[simp] theorem modAct_net1 : (modAct f s).net1 = s.net1 := rfl
@[simp] theorem modAct_remaps : (modAct f s).remaps = s.remaps := rfl
@[simp] theorem modAct_tables : (modAct f s).tables = s.tables := rfl
@[simp] theorem modAct_health : (modAct f s).health = s.health := rfl
@[simp] theorem modAct_interfaces : (modAct f s).interfaces = s.interfaces := rfl
@[simp] theorem modAct_measurements : (modAct f s).measurements = s.measurements := rfl
@[simp] theorem modAct_handover : (modAct f s).handover = s.handover := rfl
@[simp] theorem modAct_leaseAsk : (modAct f s).leaseAsk = s.leaseAsk := rfl
@[simp] theorem modAct_rack : (modAct f s).rack = s.rack := rfl
@[simp] theorem modAct_samples : (modAct f s).samples = s.samples := rfl
@[simp] theorem modAct_history : (modAct f s).history = s.history := rfl
@[simp] theorem modAct_core_slot : (modAct f s).core.slot = s.core.slot := rfl
@[simp] theorem modAct_act : (modAct f s).core.act = f s.core.act := rfl
@[simp] theorem modAct_core_shd : (modAct f s).core.shd = s.core.shd := rfl
@[simp] theorem modAct_core_shadow : (modAct f s).core.shadow = s.core.shadow := rfl
@[simp] theorem modAct_core_preloads : (modAct f s).core.preloads = s.core.preloads := rfl
@[simp] theorem modAct_core_swapReq : (modAct f s).core.swapReq = s.core.swapReq := rfl
@[simp] theorem modAct_core_leaving : (modAct f s).core.leaving = s.core.leaving := rfl
@[simp] theorem modAct_core_imem : (modAct f s).core.imem = s.core.imem := rfl
@[simp] theorem modAct_core_cstore0 : (modAct f s).core.cstore0 = s.core.cstore0 := rfl
@[simp] theorem modAct_core_cstore1 : (modAct f s).core.cstore1 = s.core.cstore1 := rfl
@[simp] theorem modAct_core_half : (modAct f s).core.half = s.core.half := rfl
@[simp] theorem modAct_core_cycle : (modAct f s).core.cycle = s.core.cycle := rfl
@[simp] theorem modAct_core_time : (modAct f s).core.time = s.core.time := rfl
@[simp] theorem modAct_core_cestall : (modAct f s).core.cestall = s.core.cestall := rfl
@[simp] theorem modAct_core_weights : (modAct f s).core.weights = s.core.weights := rfl
@[simp] theorem modAct_core_op : (modAct f s).core.op = s.core.op := rfl
@[simp] theorem modAct_core_opMove : (modAct f s).core.opMove = s.core.opMove := rfl
@[simp] theorem modAct_core_opHeld : (modAct f s).core.opHeld = s.core.opHeld := rfl
@[simp] theorem modAct_core_rail : (modAct f s).core.rail = s.core.rail := rfl
@[simp] theorem modAct_core_railEnds : (modAct f s).core.railEnds = s.core.railEnds := rfl
@[simp] theorem modAct_core_arrayFree : (modAct f s).core.arrayFree = s.core.arrayFree := rfl
@[simp] theorem modAct_core_merr : (modAct f s).core.merr = s.core.merr := rfl
@[simp] theorem modAct_core_mgrp : (modAct f s).core.mgrp = s.core.mgrp := rfl
@[simp] theorem modAct_core_windowDet : (modAct f s).core.windowDet = s.core.windowDet := rfl
@[simp] theorem modAct_core_countCycle : (modAct f s).core.countCycle = s.core.countCycle := rfl
@[simp] theorem modAct_core_countThen : (modAct f s).core.countThen = s.core.countThen := rfl
@[simp] theorem modAct_core_engine0 : (modAct f s).core.engine0 = s.core.engine0 := rfl
@[simp] theorem modAct_core_engine1 : (modAct f s).core.engine1 = s.core.engine1 := rfl
@[simp] theorem modAct_core_leaves : (modAct f s).core.leaves = s.core.leaves := rfl
@[simp] theorem modAct_core_throttled : (modAct f s).core.throttled = s.core.throttled := rfl
@[simp] theorem modAct_core_retirePending : (modAct f s).core.retirePending = s.core.retirePending := rfl
@[simp] theorem modAct_core_linkFree : (modAct f s).core.linkFree = s.core.linkFree := rfl

/-! ### `modCore` -/

@[simp] theorem modCore_time : (modCore g s).time = s.time := rfl
@[simp] theorem modCore_free : (modCore g s).free = s.free := rfl
@[simp] theorem modCore_nextId : (modCore g s).nextId = s.nextId := rfl
@[simp] theorem modCore_seq : (modCore g s).seq = s.seq := rfl
@[simp] theorem modCore_reports : (modCore g s).reports = s.reports := rfl
@[simp] theorem modCore_agenda : (modCore g s).agenda = s.agenda := rfl
@[simp] theorem modCore_happening : (modCore g s).happening = s.happening := rfl
@[simp] theorem modCore_lcn : (modCore g s).lcn = s.lcn := rfl
@[simp] theorem modCore_others : (modCore g s).others = s.others := rfl
@[simp] theorem modCore_regs : (modCore g s).regs = s.regs := rfl
@[simp] theorem modCore_mem : (modCore g s).mem = s.mem := rfl
@[simp] theorem modCore_unitKey : (modCore g s).unitKey = s.unitKey := rfl
@[simp] theorem modCore_keys : (modCore g s).keys = s.keys := rfl
@[simp] theorem modCore_kiosks : (modCore g s).kiosks = s.kiosks := rfl
@[simp] theorem modCore_accesses : (modCore g s).accesses = s.accesses := rfl
@[simp] theorem modCore_bursts : (modCore g s).bursts = s.bursts := rfl
@[simp] theorem modCore_barriers : (modCore g s).barriers = s.barriers := rfl
@[simp] theorem modCore_ingress : (modCore g s).ingress = s.ingress := rfl
@[simp] theorem modCore_hostPort : (modCore g s).hostPort = s.hostPort := rfl
@[simp] theorem modCore_hostHeld : (modCore g s).hostHeld = s.hostHeld := rfl
@[simp] theorem modCore_hostSerial : (modCore g s).hostSerial = s.hostSerial := rfl
@[simp] theorem modCore_answers : (modCore g s).answers = s.answers := rfl
@[simp] theorem modCore_held : (modCore g s).held = s.held := rfl
@[simp] theorem modCore_lanterns : (modCore g s).lanterns = s.lanterns := rfl
@[simp] theorem modCore_turnstiles : (modCore g s).turnstiles = s.turnstiles := rfl
@[simp] theorem modCore_landings : (modCore g s).landings = s.landings := rfl
@[simp] theorem modCore_glass : (modCore g s).glass = s.glass := rfl
@[simp] theorem modCore_trunks : (modCore g s).trunks = s.trunks := rfl
@[simp] theorem modCore_permits : (modCore g s).permits = s.permits := rfl
@[simp] theorem modCore_links : (modCore g s).links = s.links := rfl
@[simp] theorem modCore_peers : (modCore g s).peers = s.peers := rfl
@[simp] theorem modCore_net0 : (modCore g s).net0 = s.net0 := rfl
@[simp] theorem modCore_net1 : (modCore g s).net1 = s.net1 := rfl
@[simp] theorem modCore_remaps : (modCore g s).remaps = s.remaps := rfl
@[simp] theorem modCore_tables : (modCore g s).tables = s.tables := rfl
@[simp] theorem modCore_health : (modCore g s).health = s.health := rfl
@[simp] theorem modCore_interfaces : (modCore g s).interfaces = s.interfaces := rfl
@[simp] theorem modCore_measurements : (modCore g s).measurements = s.measurements := rfl
@[simp] theorem modCore_handover : (modCore g s).handover = s.handover := rfl
@[simp] theorem modCore_leaseAsk : (modCore g s).leaseAsk = s.leaseAsk := rfl
@[simp] theorem modCore_rack : (modCore g s).rack = s.rack := rfl
@[simp] theorem modCore_samples : (modCore g s).samples = s.samples := rfl
@[simp] theorem modCore_history : (modCore g s).history = s.history := rfl
@[simp] theorem modCore_core : (modCore g s).core = g s.core := rfl

/-! ### `modSlot` -/

@[simp] theorem modSlot_time : (modSlot h s).time = s.time := rfl
@[simp] theorem modSlot_free : (modSlot h s).free = s.free := rfl
@[simp] theorem modSlot_nextId : (modSlot h s).nextId = s.nextId := rfl
@[simp] theorem modSlot_seq : (modSlot h s).seq = s.seq := rfl
@[simp] theorem modSlot_reports : (modSlot h s).reports = s.reports := rfl
@[simp] theorem modSlot_agenda : (modSlot h s).agenda = s.agenda := rfl
@[simp] theorem modSlot_happening : (modSlot h s).happening = s.happening := rfl
@[simp] theorem modSlot_lcn : (modSlot h s).lcn = s.lcn := rfl
@[simp] theorem modSlot_others : (modSlot h s).others = s.others := rfl
@[simp] theorem modSlot_regs : (modSlot h s).regs = s.regs := rfl
@[simp] theorem modSlot_mem : (modSlot h s).mem = s.mem := rfl
@[simp] theorem modSlot_unitKey : (modSlot h s).unitKey = s.unitKey := rfl
@[simp] theorem modSlot_keys : (modSlot h s).keys = s.keys := rfl
@[simp] theorem modSlot_kiosks : (modSlot h s).kiosks = s.kiosks := rfl
@[simp] theorem modSlot_accesses : (modSlot h s).accesses = s.accesses := rfl
@[simp] theorem modSlot_bursts : (modSlot h s).bursts = s.bursts := rfl
@[simp] theorem modSlot_barriers : (modSlot h s).barriers = s.barriers := rfl
@[simp] theorem modSlot_ingress : (modSlot h s).ingress = s.ingress := rfl
@[simp] theorem modSlot_hostPort : (modSlot h s).hostPort = s.hostPort := rfl
@[simp] theorem modSlot_hostHeld : (modSlot h s).hostHeld = s.hostHeld := rfl
@[simp] theorem modSlot_hostSerial : (modSlot h s).hostSerial = s.hostSerial := rfl
@[simp] theorem modSlot_answers : (modSlot h s).answers = s.answers := rfl
@[simp] theorem modSlot_held : (modSlot h s).held = s.held := rfl
@[simp] theorem modSlot_lanterns : (modSlot h s).lanterns = s.lanterns := rfl
@[simp] theorem modSlot_turnstiles : (modSlot h s).turnstiles = s.turnstiles := rfl
@[simp] theorem modSlot_landings : (modSlot h s).landings = s.landings := rfl
@[simp] theorem modSlot_glass : (modSlot h s).glass = s.glass := rfl
@[simp] theorem modSlot_trunks : (modSlot h s).trunks = s.trunks := rfl
@[simp] theorem modSlot_permits : (modSlot h s).permits = s.permits := rfl
@[simp] theorem modSlot_links : (modSlot h s).links = s.links := rfl
@[simp] theorem modSlot_peers : (modSlot h s).peers = s.peers := rfl
@[simp] theorem modSlot_net0 : (modSlot h s).net0 = s.net0 := rfl
@[simp] theorem modSlot_net1 : (modSlot h s).net1 = s.net1 := rfl
@[simp] theorem modSlot_remaps : (modSlot h s).remaps = s.remaps := rfl
@[simp] theorem modSlot_tables : (modSlot h s).tables = s.tables := rfl
@[simp] theorem modSlot_health : (modSlot h s).health = s.health := rfl
@[simp] theorem modSlot_interfaces : (modSlot h s).interfaces = s.interfaces := rfl
@[simp] theorem modSlot_measurements : (modSlot h s).measurements = s.measurements := rfl
@[simp] theorem modSlot_handover : (modSlot h s).handover = s.handover := rfl
@[simp] theorem modSlot_leaseAsk : (modSlot h s).leaseAsk = s.leaseAsk := rfl
@[simp] theorem modSlot_rack : (modSlot h s).rack = s.rack := rfl
@[simp] theorem modSlot_samples : (modSlot h s).samples = s.samples := rfl
@[simp] theorem modSlot_history : (modSlot h s).history = s.history := rfl
@[simp] theorem modSlot_slot : (modSlot h s).core.slot = h s.core.slot := rfl
@[simp] theorem modSlot_core_act : (modSlot h s).core.act = s.core.act := rfl
@[simp] theorem modSlot_core_shd : (modSlot h s).core.shd = s.core.shd := rfl
@[simp] theorem modSlot_core_shadow : (modSlot h s).core.shadow = s.core.shadow := rfl
@[simp] theorem modSlot_core_preloads : (modSlot h s).core.preloads = s.core.preloads := rfl
@[simp] theorem modSlot_core_swapReq : (modSlot h s).core.swapReq = s.core.swapReq := rfl
@[simp] theorem modSlot_core_leaving : (modSlot h s).core.leaving = s.core.leaving := rfl
@[simp] theorem modSlot_core_imem : (modSlot h s).core.imem = s.core.imem := rfl
@[simp] theorem modSlot_core_cstore0 : (modSlot h s).core.cstore0 = s.core.cstore0 := rfl
@[simp] theorem modSlot_core_cstore1 : (modSlot h s).core.cstore1 = s.core.cstore1 := rfl
@[simp] theorem modSlot_core_half : (modSlot h s).core.half = s.core.half := rfl
@[simp] theorem modSlot_core_cycle : (modSlot h s).core.cycle = s.core.cycle := rfl
@[simp] theorem modSlot_core_time : (modSlot h s).core.time = s.core.time := rfl
@[simp] theorem modSlot_core_cestall : (modSlot h s).core.cestall = s.core.cestall := rfl
@[simp] theorem modSlot_core_weights : (modSlot h s).core.weights = s.core.weights := rfl
@[simp] theorem modSlot_core_op : (modSlot h s).core.op = s.core.op := rfl
@[simp] theorem modSlot_core_opMove : (modSlot h s).core.opMove = s.core.opMove := rfl
@[simp] theorem modSlot_core_opHeld : (modSlot h s).core.opHeld = s.core.opHeld := rfl
@[simp] theorem modSlot_core_rail : (modSlot h s).core.rail = s.core.rail := rfl
@[simp] theorem modSlot_core_railEnds : (modSlot h s).core.railEnds = s.core.railEnds := rfl
@[simp] theorem modSlot_core_arrayFree : (modSlot h s).core.arrayFree = s.core.arrayFree := rfl
@[simp] theorem modSlot_core_merr : (modSlot h s).core.merr = s.core.merr := rfl
@[simp] theorem modSlot_core_mgrp : (modSlot h s).core.mgrp = s.core.mgrp := rfl
@[simp] theorem modSlot_core_windowDet : (modSlot h s).core.windowDet = s.core.windowDet := rfl
@[simp] theorem modSlot_core_countCycle : (modSlot h s).core.countCycle = s.core.countCycle := rfl
@[simp] theorem modSlot_core_countThen : (modSlot h s).core.countThen = s.core.countThen := rfl
@[simp] theorem modSlot_core_engine0 : (modSlot h s).core.engine0 = s.core.engine0 := rfl
@[simp] theorem modSlot_core_engine1 : (modSlot h s).core.engine1 = s.core.engine1 := rfl
@[simp] theorem modSlot_core_leaves : (modSlot h s).core.leaves = s.core.leaves := rfl
@[simp] theorem modSlot_core_throttled : (modSlot h s).core.throttled = s.core.throttled := rfl
@[simp] theorem modSlot_core_retirePending : (modSlot h s).core.retirePending = s.core.retirePending := rfl
@[simp] theorem modSlot_core_linkFree : (modSlot h s).core.linkFree = s.core.linkFree := rfl

/-! ### Stalling -/

@[simp] theorem stall_time : (stall s).time = s.time := rfl
@[simp] theorem stall_free : (stall s).free = s.free := rfl
@[simp] theorem stall_nextId : (stall s).nextId = s.nextId := rfl
@[simp] theorem stall_seq : (stall s).seq = s.seq := rfl
@[simp] theorem stall_reports : (stall s).reports = s.reports := rfl
@[simp] theorem stall_agenda : (stall s).agenda = s.agenda := rfl
@[simp] theorem stall_happening : (stall s).happening = s.happening := rfl
@[simp] theorem stall_lcn : (stall s).lcn = s.lcn := rfl
@[simp] theorem stall_others : (stall s).others = s.others := rfl
@[simp] theorem stall_regs : (stall s).regs = s.regs := rfl
@[simp] theorem stall_mem : (stall s).mem = s.mem := rfl
@[simp] theorem stall_unitKey : (stall s).unitKey = s.unitKey := rfl
@[simp] theorem stall_keys : (stall s).keys = s.keys := rfl
@[simp] theorem stall_kiosks : (stall s).kiosks = s.kiosks := rfl
@[simp] theorem stall_accesses : (stall s).accesses = s.accesses := rfl
@[simp] theorem stall_bursts : (stall s).bursts = s.bursts := rfl
@[simp] theorem stall_barriers : (stall s).barriers = s.barriers := rfl
@[simp] theorem stall_ingress : (stall s).ingress = s.ingress := rfl
@[simp] theorem stall_hostPort : (stall s).hostPort = s.hostPort := rfl
@[simp] theorem stall_hostHeld : (stall s).hostHeld = s.hostHeld := rfl
@[simp] theorem stall_hostSerial : (stall s).hostSerial = s.hostSerial := rfl
@[simp] theorem stall_answers : (stall s).answers = s.answers := rfl
@[simp] theorem stall_held : (stall s).held = s.held := rfl
@[simp] theorem stall_lanterns : (stall s).lanterns = s.lanterns := rfl
@[simp] theorem stall_turnstiles : (stall s).turnstiles = s.turnstiles := rfl
@[simp] theorem stall_landings : (stall s).landings = s.landings := rfl
@[simp] theorem stall_glass : (stall s).glass = s.glass := rfl
@[simp] theorem stall_trunks : (stall s).trunks = s.trunks := rfl
@[simp] theorem stall_permits : (stall s).permits = s.permits := rfl
@[simp] theorem stall_links : (stall s).links = s.links := rfl
@[simp] theorem stall_peers : (stall s).peers = s.peers := rfl
@[simp] theorem stall_net0 : (stall s).net0 = s.net0 := rfl
@[simp] theorem stall_net1 : (stall s).net1 = s.net1 := rfl
@[simp] theorem stall_remaps : (stall s).remaps = s.remaps := rfl
@[simp] theorem stall_tables : (stall s).tables = s.tables := rfl
@[simp] theorem stall_health : (stall s).health = s.health := rfl
@[simp] theorem stall_interfaces : (stall s).interfaces = s.interfaces := rfl
@[simp] theorem stall_measurements : (stall s).measurements = s.measurements := rfl
@[simp] theorem stall_handover : (stall s).handover = s.handover := rfl
@[simp] theorem stall_leaseAsk : (stall s).leaseAsk = s.leaseAsk := rfl
@[simp] theorem stall_rack : (stall s).rack = s.rack := rfl
@[simp] theorem stall_samples : (stall s).samples = s.samples := rfl
@[simp] theorem stall_history : (stall s).history = s.history := rfl
@[simp] theorem stall_act : (stall s).core.act = s.core.act := rfl
@[simp] theorem stall_ended : (stall s).core.slot.ended = .stalled := rfl

end Sys2Proof.Machine
end

