-- ==== Sys2Proof/Laws/Write.lean ====
section
/-! SUPPORT. What the shared operations of a meaning do: the frame of a slot, and the writes of scalar, predicate, mask and vector
destinations. -/

namespace Sys2Proof.Machine

/-! ### The frame of a meaning -/

/-- A clear operation has its own effect. -/
theorem checked_of_clear {i : Instr} {s : State} (h : Clear i s) (k : State → Out) : checked i s k = k s := by
  unfold checked
  rw [h.1]
  simp [h.2.1, h.2.2]

/-- R335, R342: a slot with a cause takes it, but a nonzero bit that must be zero first where its code is lower. -/
theorem checked_of_fault {i : Instr} {s : State} {f : BitVec 8 × W64} (h : slotFault i s = some f) (k : State → Out) :
    checked i s k = .next (if decide (0x05#8 < f.1) && valueBad i s then trap 0x05 (BitVec.ofNat 64 (curWord s).toNat) s
      else trap f.1 f.2 s) := by
  unfold checked
  rw [h]

/-- R131: a slot whose operands or units are not ready stalls. -/
theorem checked_of_unready {i : Instr} {s : State} (h : slotFault i s = none) (hr : ready i s = false) (k : State → Out) :
    checked i s k = .next (stall s) := by
  unfold checked
  rw [h]
  simp [hr]

/-- Whatever a meaning does of its own, the frame adds a trap or a stall and no other stop. -/
theorem checked_next {i : Instr} {s : State} {k : State → Out} (h : ∃ t, k s = .next t) : ∃ t, checked i s k = .next t := by
  unfold checked
  split
  · exact ⟨_, rfl⟩
  · split
    · exact ⟨_, rfl⟩
    · split
      · exact ⟨_, rfl⟩
      · exact h

/-! ### Results in flight -/

theorem mem_addResult (d : ResultDest) (due : Option Nat) (m : BitVec 64) (t : Bool) (c : Context) :
    ⟨c.nextRid, d, due, m, t⟩ ∈ (addResult d due m t c).results := by
  simp [addResult]

/-- R131: a new result changes the readiness of its own register alone. -/
theorem resReady_addResult (d : ResultDest) (due : Option Nat) (m : BitVec 64) (t : Bool) (c : Context) (r : Res)
    (h : d ≠ .named r) : (addResult d due m t c).resReady r = c.resReady r := by
  have hd : (d != .named r) = true := by simpa using h
  cases d with
  | trellis q => simp [addResult, Context.resReady, hd]
  | named q =>
    have hq : q ≠ r := fun hc => h (by rw [hc])
    simp only [addResult, Context.resReady, List.all_append, List.all_cons, List.all_nil, Bool.and_true, hd, dropOlder]
    induction c.results with
    | nil => rfl
    | cons x l ih =>
      simp only [List.filterMap_cons, List.all_cons]
      by_cases hx : x.dest = .named q
      · have hxr : (x.dest != .named r) = true := by rw [hx]; simpa using hq
        simp only [hx, beq_self_eq_true, if_true]
        split
        · rename_i hn
          rw [hx] at hxr
          simpa [hxr] using ih
        · rename_i y hy
          have hyd : y.dest = .named q := by
            split at hy
            · cases hy
            · injection hy with hy
              rw [← hy]
          rw [hx] at hxr
          simpa [hyd, hxr] using ih
      · have hb : (x.dest == ResultDest.named q) = false := by simpa using hx
        simp only [hb, Bool.false_eq_true, if_false, List.all_cons, ih]

/-! ### Scalar destinations (R150) -/

/-- R150, R152: what WriteS does. -/
theorem writeS_wrote {d : Nat} (v : W64) (L : Nat) (s : State) : WroteScalar d v L s (writeS d v L s) := by
  unfold writeS writeSDue dueIn
  by_cases h1 : d < 16
  · rw [if_pos h1]
    exact
      { named := fun _ => ⟨rfl, _, mem_addResult .., rfl, rfl, rfl⟩
        position := fun h => by omega
        discarded := fun h => by omega
        otherRegs := fun h => by omega
        otherPending := fun _ => rfl
        otherReady := fun r hr => resReady_addResult _ _ _ _ { s.core.act with sreg := _ } r (fun hc => hr (by injection hc with hc; exact hc.symm))
        frame := rfl }
  · rw [if_neg h1]
    by_cases h2 : d = 16
    · rw [if_pos (by simpa using h2)]
      exact
        { named := fun h => by omega
          position := fun _ => ⟨rfl, _, mem_addResult (.trellis .s) (some (s.core.cycle + L)) 0 false s.core.act, rfl, rfl, rfl⟩
          discarded := fun h => by omega
          otherRegs := fun _ => rfl
          otherPending := fun h => absurd h2 h
          otherReady := fun r _ => resReady_addResult (.trellis .s) (some (s.core.cycle + L)) 0 false s.core.act r (by simp)
          frame := rfl }
    · rw [if_neg (by simpa using h2)]
      exact
        { named := fun h => absurd h h1
          position := fun h => absurd h h2
          discarded := fun _ => rfl
          otherRegs := fun _ => rfl
          otherPending := fun _ => rfl
          otherReady := fun _ _ => rfl
          frame := rfl }

/-- R150: a clear scalar operation writes the value it computes. -/
theorem scalarOp_wrote {i : Instr} {s : State} {d : BitVec 6} {L : Nat} {f : State → W64} {v : W64} (h : Clear i s) (hv : f s = v) :
    ∃ t, scalarOp i d L f s = .next t ∧ WroteScalar d.toNat v L s t :=
  ⟨_, checked_of_clear h _, hv ▸ writeS_wrote _ _ _⟩

/-! ### Predicates (R135) -/

/-- R150: what WriteP does. -/
theorem writeP_wrote (p : Nat) (b : Bool) (L : Nat) (s : State) : WrotePred p b L s (writeP p b L s) := by
  unfold writeP
  by_cases h : p = 0
  · rw [if_pos (by simpa using h)]
    exact { hardWired := fun _ => rfl, written := fun hn => absurd h hn, otherReady := fun _ _ => rfl, frame := rfl }
  · rw [if_neg (by simpa using h)]
    exact
      { hardWired := fun hn => absurd hn h
        written := fun _ => ⟨rfl, _, mem_addResult .., rfl, rfl, rfl⟩
        otherReady := fun r hr => resReady_addResult _ _ _ _ { s.core.act with preds := _ } r (fun hc => hr (by injection hc with hc; exact hc.symm))
        frame := rfl }

/-! ### Masks (R135) -/

/-- R135: what the write of an own mask does. -/
theorem writeMask_wrote (v : Cluster) (x : Nat) (m : BitVec 64) (L : Nat) (s : State) : WroteMask v x m L s (writeMask v x m L s) := by
  unfold writeMask dueIn
  by_cases h : x = 0
  · rw [if_pos (by simpa using h)]
    exact { hardWired := fun _ => rfl, written := fun hn => absurd h hn, otherCluster := rfl, otherReady := fun _ _ => rfl, frame := rfl }
  · rw [if_neg (by simpa using h)]
    have hr : ∀ r, r ≠ .m v x → (addResult (.named (.m v x)) (some (s.core.cycle + L)) (BitVec.allOnes 64) false s.core.act).resReady r =
        s.core.act.resReady r := fun r hr => resReady_addResult _ _ _ _ _ r (fun hc => hr (by injection hc with hc; exact hc.symm))
    cases v with
    | va =>
      exact { hardWired := fun hn => absurd hn h, written := fun _ => ⟨rfl, _, mem_addResult (.named (.m .va x)) (some (s.core.cycle + L)) (BitVec.allOnes 64) false s.core.act, rfl, rfl, rfl⟩, otherCluster := rfl
              otherReady := hr, frame := rfl }
    | vb =>
      exact { hardWired := fun hn => absurd hn h, written := fun _ => ⟨rfl, _, mem_addResult (.named (.m .vb x)) (some (s.core.cycle + L)) (BitVec.allOnes 64) false s.core.act, rfl, rfl, rfl⟩, otherCluster := rfl
              otherReady := hr, frame := rfl }

/-! ### Vector destinations (R132, R136, R195) -/

theorem writeVNamed_wrote {v : Cluster} {x : Nat} (hx : x % 32 < 16) (m : BitVec 64) (r : VReg) (due : Option Nat) (s : State) :
    WroteVector v x m r due s (writeVNamed (specCluster v x) (x % 16) m r due s) := by
  have hr : ∀ q, q ≠ .v (specCluster v x) (x % 16) → (addResult (.named (.v (specCluster v x) (x % 16))) due m
      (setsTag m (.v (specCluster v x) (x % 16)) s) s.core.act).resReady q = s.core.act.resReady q :=
    fun q hq => resReady_addResult _ _ _ _ _ q (fun hc => hq (by injection hc with hc; exact hc.symm))
  revert hr
  unfold setsTag
  generalize hw : specCluster v x = w
  intro hr
  have hp : ¬ 16 ≤ x % 32 := by omega
  unfold writeVNamed
  cases w <;> dsimp only <;> split <;>
    exact
      { named := fun _ => by rw [hw]; rfl
        position := fun h => absurd h hp
        arrives := by rw [hw, if_pos hx]; exact ⟨_, mem_addResult (.named (.v _ (x % 16))) due m _ s.core.act, rfl, rfl, rfl⟩
        otherFile := by rw [hw]; rfl
        otherPending := fun _ => rfl
        otherReady := by rw [hw]; exact hr
        frame := rfl }

theorem pushV_wrote {v : Cluster} {x : Nat} (hx : ¬ x % 32 < 16) (m : BitVec 64) (r : VReg) (due : Option Nat) (s : State) :
    WroteVector v x m r due s (pushV (specCluster v x) ⟨mergeLanes m r.lanes (List.replicate 64 0), r.tag⟩ due s) := by
  generalize hw : specCluster v x = w
  unfold pushV
  exact
    { named := fun h => absurd h hx
      position := fun _ => by rw [hw]; exact ⟨rfl, rfl⟩
      arrives := by rw [hw, if_neg hx]; exact ⟨_, mem_addResult (.trellis (.v w)) due 0 false s.core.act, rfl, rfl, rfl⟩
      otherFile := rfl
      otherPending := fun h => absurd h hx
      otherReady := fun q _ => resReady_addResult (.trellis (.v w)) due 0 false s.core.act q (by simp)
      frame := rfl }

/-- R195: what the write of a vector destination does. -/
theorem writeVDue_wrote (v : Cluster) (x : Nat) (m : BitVec 64) (r : VReg) (due : Option Nat) (s : State) :
    WroteVector v x m r due s (writeVDue v x m r due s) := by
  unfold writeVDue
  dsimp only
  split
  · exact writeVNamed_wrote ‹_› m r due s
  · exact pushV_wrote ‹_› m r due s

end Sys2Proof.Machine
end

