-- ==== Sys2Proof/Laws/Values.lean ====
section
/-! SUPPORT. The model's arithmetic on numbers, said of bit vectors. -/

namespace Sys2Proof.Machine

theorem bit_eq_testBit (v i : Nat) : bit v i = v.testBit i := by
  unfold bit
  rw [Nat.testBit_eq_decide_div_mod_eq]
  cases h : decide (v / 2 ^ i % 2 = 1) <;> simp_all

theorem bit_toNat {n : Nat} (v : BitVec n) (i : Nat) : bit v.toNat i = v.getLsbD i := by
  rw [bit_eq_testBit, BitVec.testBit_toNat]

/-- R10: SignExt of a whole bit vector is its signed value. -/
theorem signExt_toNat {n : Nat} (v : BitVec n) : signExt v.toNat n = v.toInt := by
  have hm : bit v.toNat (n - 1) = v.msb := by rw [bit_toNat, BitVec.msb_eq_getLsbD_last]
  have hmod : v.toNat % 2 ^ n = v.toNat := Nat.mod_eq_of_lt v.isLt
  unfold signExt
  rw [hm, BitVec.toInt_eq_msb_cond]
  split
  · norm_cast
    rw [hmod]
  · norm_cast

theorem ofInt_signExt {n m : Nat} (v : BitVec n) : BitVec.ofInt m (signExt v.toNat n) = v.signExtend m := by
  rw [signExt_toNat v, BitVec.signExtend]

theorem toNat_append {n m : Nat} (x : BitVec n) (y : BitVec m) : (x ++ y).toNat = x.toNat * 2 ^ m + y.toNat := by
  rw [BitVec.toNat_append, ← Nat.shiftLeft_add_eq_or_of_lt y.isLt, Nat.shiftLeft_eq]

/-- R128: the signed immediate. -/
theorem ofInt_immS {w : Nat} (m : BitVec w) (x : SlotCtx) :
    BitVec.ofInt 64 (immS w m.toNat x) = if x.hdr then (x.xb ++ m).signExtend 64 else m.signExtend 64 := by
  unfold immS immZ
  cases x.hdr
  · exact ofInt_signExt m
  · simp only [if_true]
    rw [← toNat_append, Nat.add_comm w 4]
    exact ofInt_signExt (x.xb ++ m)

/-- R128: the unsigned immediate. -/
theorem ofNat_immZ {w : Nat} (m : BitVec w) (x : SlotCtx) :
    BitVec.ofNat 64 (immZ w m.toNat x) = if x.hdr then (x.xb ++ m).setWidth 64 else m.setWidth 64 := by
  unfold immZ
  cases x.hdr
  · simp
  · simp only [if_true, ← toNat_append]
    apply BitVec.eq_of_toNat_eq
    rw [BitVec.toNat_ofNat, BitVec.toNat_setWidth]

/-- R128: the number of an unsigned immediate. -/
theorem immZ_toNat {w : Nat} (m : BitVec w) (x : SlotCtx) :
    immZ w m.toNat x = if x.hdr then (x.xb ++ m).toNat else m.toNat := by
  unfold immZ
  cases x.hdr
  · rfl
  · exact (toNat_append x.xb m).symm

/-! ### Bit counts (R154) -/

theorem popCount_eq (v : W64) (n : Nat) : popCount v.toNat n = ((List.range n).filter (fun i => v.getLsbD i)).length := by
  induction n with
  | zero => rfl
  | succ n ih =>
    rw [popCount, ih, List.range_succ, List.filter_append, List.length_append, bit_toNat]
    cases h : v.getLsbD n <;> simp [h, b2n]
    omega

theorem trailingZeros_eq (v : W64) (i n : Nat) :
    trailingZeros v.toNat i n = (((List.range n).map (i + ·)).takeWhile (fun j => !v.getLsbD j)).length := by
  induction n generalizing i with
  | zero => rfl
  | succ n ih =>
    rw [trailingZeros, List.range_succ_eq_map, List.map_cons, List.map_map, List.takeWhile_cons, bit_toNat, Nat.add_zero]
    cases h : v.getLsbD i
    · have : ((fun x => i + x) ∘ Nat.succ) = (fun x => i + 1 + x) := by
        funext x
        simp only [Function.comp_apply]
        omega
      rw [this]
      simp [ih]
      omega
    · simp

theorem leadingZeros_eq (v : Nat) (k n : Nat) :
    leadingZeros v n = (((List.range n).map (k + ·)).takeWhile (fun j => !v.testBit (k + n - 1 - j))).length := by
  induction n generalizing k with
  | zero => rfl
  | succ n ih =>
    rw [leadingZeros, List.range_succ_eq_map, List.map_cons, List.map_map, List.takeWhile_cons, bit_eq_testBit]
    simp only [Nat.add_zero]
    have h0 : k + (n + 1) - 1 - k = n := by omega
    rw [h0]
    cases h : v.testBit n
    · have h1 : ((fun x => k + x) ∘ Nat.succ) = (fun x => k + 1 + x) := by
        funext x
        simp only [Function.comp_apply]
        omega
      have h2 : ∀ j, k + (n + 1) - 1 - j = k + 1 + n - 1 - j := by intro j; omega
      rw [h1]
      simp only [h2, Bool.not_false, if_true, List.length_cons, Bool.false_eq_true, if_false, ← ih (k + 1)]
      omega
    · simp

/-! ### Results of the integer instructions (R153, R154) -/

/-- R153: the value of LIH. -/
theorem shift_or (a : W64) {n : Nat} (m : BitVec n) : (a <<< n) ||| m.setWidth 64 = BitVec.ofNat 64 (a.toNat * 2 ^ n + m.toNat) := by
  apply BitVec.eq_of_toNat_eq
  rw [BitVec.toNat_or, BitVec.toNat_shiftLeft, BitVec.toNat_setWidth, BitVec.toNat_ofNat]
  rw [← Nat.shiftLeft_eq a.toNat n, Nat.shiftLeft_add_eq_or_of_lt m.isLt, Nat.or_mod_two_pow]

theorem mul_high_signed (x y : W64) : BitVec.ofInt 64 (x.toInt * y.toInt / 2 ^ 64) = (x.signExtend 128 * y.signExtend 128).extractLsb' 64 64 := by
  have h : (x.signExtend 128 * y.signExtend 128) = BitVec.ofInt 128 (x.toInt * y.toInt) := by
    rw [BitVec.ofInt_mul]; rfl
  rw [h]
  apply BitVec.eq_of_toNat_eq
  rw [BitVec.extractLsb'_toNat, BitVec.toNat_ofInt, BitVec.toNat_ofInt, Nat.shiftRight_eq_div_pow]
  generalize x.toInt * y.toInt = z
  zify
  rw [Int.toNat_of_nonneg (Int.emod_nonneg _ (by norm_num)), Int.toNat_of_nonneg (Int.emod_nonneg _ (by norm_num))]
  norm_num
  omega

theorem mul_high_unsigned (x y : W64) : BitVec.ofNat 64 (x.toNat * y.toNat / 2 ^ 64) = (x.setWidth 128 * y.setWidth 128).extractLsb' 64 64 := by
  apply BitVec.eq_of_toNat_eq
  rw [BitVec.extractLsb'_toNat, BitVec.toNat_mul, BitVec.toNat_setWidth, BitVec.toNat_setWidth, BitVec.toNat_ofNat, Nat.shiftRight_eq_div_pow]
  have hx := x.isLt
  have hy := y.isLt
  rw [Nat.mod_eq_of_lt (show x.toNat < 2 ^ 128 by omega), Nat.mod_eq_of_lt (show y.toNat < 2 ^ 128 by omega)]
  have : x.toNat * y.toNat < 2 ^ 128 := by
    calc x.toNat * y.toNat < 2 ^ 64 * 2 ^ 64 := Nat.mul_lt_mul'' hx hy
      _ = 2 ^ 128 := by norm_num
  rw [Nat.mod_eq_of_lt this]

theorem leadingZeros_takeWhile (x : W64) : leadingZeros x.toNat 64 = ((List.range 64).takeWhile (fun i => !x.getMsbD i)).length := by
  rw [leadingZeros_eq x.toNat 0 64]
  simp only [Nat.zero_add, List.map_id']
  have : ∀ l : List Nat, (∀ j ∈ l, j < 64) → l.takeWhile (fun j => !x.toNat.testBit (64 - 1 - j)) = l.takeWhile (fun i => !x.getMsbD i) := by
    intro l hl
    induction l with
    | nil => rfl
    | cons j r ih =>
      have hj : x.getMsbD j = x.toNat.testBit (64 - 1 - j) := by
        have := hl j List.mem_cons_self
        simp [BitVec.getMsbD, this, BitVec.testBit_toNat]
      rw [List.takeWhile_cons, List.takeWhile_cons, hj, ih (fun k hk => hl k (List.mem_cons_of_mem _ hk))]
  rw [this _ (fun j hj => List.mem_range.mp hj)]

theorem shl_eq_mul (x : W64) (n : Nat) : x <<< n = BitVec.ofNat 64 (x.toNat * 2 ^ n) := by
  apply BitVec.eq_of_toNat_eq
  rw [BitVec.toNat_shiftLeft, BitVec.toNat_ofNat, Nat.shiftLeft_eq]

theorem shr_eq_div (x : W64) (n : Nat) : x >>> n = BitVec.ofNat 64 (x.toNat / 2 ^ n) := by
  apply BitVec.eq_of_toNat_eq
  rw [BitVec.toNat_ushiftRight, BitVec.toNat_ofNat, Nat.shiftRight_eq_div_pow, Nat.mod_eq_of_lt]
  exact Nat.lt_of_le_of_lt (Nat.div_le_self _ _) x.isLt

theorem sra_eq_div (x : W64) (n : Nat) : x.sshiftRight n = BitVec.ofInt 64 (x.toInt / 2 ^ n) := by
  rw [BitVec.sshiftRight, Int.shiftRight_eq_div_pow]; norm_cast

theorem min_signed (x y : W64) : (if x.toInt ≤ y.toInt then x else y) = BitVec.ofInt 64 (min x.toInt y.toInt) := by
  split <;> rename_i h
  · rw [min_eq_left h, BitVec.ofInt_toInt]
  · rw [min_eq_right (le_of_not_ge h), BitVec.ofInt_toInt]

theorem max_signed (x y : W64) : (if x.toInt ≤ y.toInt then y else x) = BitVec.ofInt 64 (max x.toInt y.toInt) := by
  split <;> rename_i h
  · rw [max_eq_right h, BitVec.ofInt_toInt]
  · rw [max_eq_left (le_of_not_ge h), BitVec.ofInt_toInt]

theorem min_unsigned (x y : W64) : (if x.toNat ≤ y.toNat then x else y) = BitVec.ofNat 64 (min x.toNat y.toNat) := by
  split <;> rename_i h
  · rw [min_eq_left h, BitVec.ofNat_toNat, BitVec.setWidth_eq]
  · rw [min_eq_right (le_of_not_ge h), BitVec.ofNat_toNat, BitVec.setWidth_eq]

theorem max_unsigned (x y : W64) : (if x.toNat ≤ y.toNat then y else x) = BitVec.ofNat 64 (max x.toNat y.toNat) := by
  split <;> rename_i h
  · rw [max_eq_right h, BitVec.ofNat_toNat, BitVec.setWidth_eq]
  · rw [max_eq_left (le_of_not_ge h), BitVec.ofNat_toNat, BitVec.setWidth_eq]

end Sys2Proof.Machine
end

