-- ==== Sys2Proof/Laws/Control.lean ====
section
/-! SUPPORT. Where a context goes on: an address of a space, the loop check, and the fields of the status word. -/

namespace Sys2Proof.Machine

theorem Context.micro_goto_micro (c : Context) (a : Nat) (e : Option Return) : (c.goto ⟨a, true, e⟩).micro = true := by
  simp [Context.goto, Context.micro, bit]; omega

theorem Context.here_goto_micro (c : Context) (a : Nat) (e : Option Return) (h : a < 0x8000) : (c.goto ⟨a, true, e⟩).here = a := by
  unfold Context.here
  rw [c.micro_goto_micro]
  simp [Context.goto, fld]; omega

theorem Context.micro_goto_macro (c : Context) (a : Nat) (e : Option Return) : (c.goto ⟨a, false, e⟩).micro = false := by
  have := c.micpc.isLt
  simp [Context.goto, Context.micro, bit, putFld]; omega

theorem Context.here_goto_macro (c : Context) (a : Nat) (e : Option Return) (h : a < 0x40000) : (c.goto ⟨a, false, e⟩).here = a := by
  unfold Context.here
  rw [c.micro_goto_macro]
  simp [Context.goto]; omega

/-- R170: going to an address of a space. -/
theorem Context.here_goto (c : Context) (t : Target) (h : t.addr < if t.micro = true then 0x8000 else 0x40000) :
    (c.goto t).here = t.addr ∧ (c.goto t).micro = t.micro := by
  obtain ⟨a, m, e⟩ := t
  cases m
  · exact ⟨c.here_goto_macro a e (by simpa using h), c.micro_goto_macro a e⟩
  · exact ⟨c.here_goto_micro a e (by simpa using h), c.micro_goto_micro a e⟩

@[simp] theorem Context.goto_loops (c : Context) (t : Target) : (c.goto t).loops = c.loops := by unfold Context.goto; split <;> rfl
@[simp] theorem Context.goto_xfer (c : Context) (t : Target) : (c.goto t).xfer = c.xfer := by unfold Context.goto; split <;> rfl
@[simp] theorem Context.goto_stw (c : Context) (t : Target) : (c.goto t).stw = c.stw := by unfold Context.goto; split <;> rfl
@[simp] theorem Context.goto_group (c : Context) (t : Target) : (c.goto t).group = c.group := by unfold Context.goto; split <;> rfl
@[simp] theorem Context.goto_soft (c : Context) (t : Target) : (c.goto t).soft = c.soft := by unfold Context.goto; split <;> rfl

/-- R173: levels that end here in their last iteration are popped. -/
theorem loopCheck_last (h : Nat) (m : Bool) (ls r : List Level) (hl : ∀ l ∈ ls, l.last = h ∧ l.micro = m ∧ l.rem.toNat ≤ 1) :
    loopCheck h m (ls ++ r) = loopCheck h m r := by
  induction ls with
  | nil => rfl
  | cons x l ih =>
    have hx := hl x (by simp)
    have h2 : ¬ (1 < x.rem.toNat) := by omega
    simp only [List.cons_append, loopCheck, hx.1, hx.2.1, beq_self_eq_true, Bool.and_self, if_true, h2, if_false]
    exact ih (fun y hy => hl y (by simp [hy]))

/-- R173: a level that ends here and goes on. -/
theorem loopCheck_more (h : Nat) (m : Bool) (l : Level) (r : List Level) (h1 : l.last = h) (h2 : l.micro = m) (h3 : 1 < l.rem.toNat) :
    loopCheck h m (l :: r) = ({ l with rem := l.rem - 1, idx := l.idx + 1 } :: r, some l.start) := by
  simp [loopCheck, h1, h2, h3]

/-- R173: a bundle that is not the end of the innermost level. -/
theorem loopCheck_none (h : Nat) (m : Bool) (ls : List Level) (hl : ∀ l ∈ ls.head?, l.last ≠ h ∨ l.micro ≠ m) :
    loopCheck h m ls = (ls, none) := by
  cases ls with
  | nil => rfl
  | cons l r =>
    simp only [loopCheck]
    rw [if_neg]
    have := hl l (by simp)
    simp only [Bool.and_eq_true, beq_iff_eq, not_and]
    tauto

/-- R128: the signed immediate of a field of `w` bits. -/
theorem immS_eq (w : Nat) (m : BitVec w) (x : SlotCtx) :
    immS w m.toNat x = if x.hdr then (x.xb ++ m).toInt else m.toInt := by
  unfold immS immZ
  split
  · rw [← toNat_append, Nat.add_comm w 4]
    exact signExt_toNat _
  · exact signExt_toNat _

end Sys2Proof.Machine
end

