-- ==== Sys2Proof/Laws/Memory.lean ====
section
/-! SUPPORT. The laws of memory: reading after writing, and the canonical form that every write keeps. -/

namespace Sys2Proof.Machine

/-! ### Cells -/

/-- Below the least listed address every byte is unlisted. -/
theorem memGet_below {m : List Host.Cell} {lo a : Nat} (h : memWfFrom (some lo) m = true) (ha : a ≤ lo) :
    memGet m a = unlisted := by
  induction m generalizing lo with
  | nil => rfl
  | cons e r ih =>
    obtain ⟨k, v⟩ := e
    simp only [memWfFrom, Bool.and_eq_true, decide_eq_true_eq] at h
    have hk : (k == a) = false := by simp; omega
    simp only [memGet, hk]
    exact ih h.2 (by omega)

theorem memWfFrom_weaken {m : List Host.Cell} {lo lo' : Nat} (h : memWfFrom (some lo) m = true) (hl : lo' ≤ lo) :
    memWfFrom (some lo') m = true := by
  cases m with
  | nil => rfl
  | cons e r =>
    obtain ⟨k, v⟩ := e
    simp only [memWfFrom, Bool.and_eq_true, decide_eq_true_eq] at h ⊢
    exact ⟨⟨by omega, h.1.2⟩, h.2⟩

theorem memWfFrom_none {m : List Host.Cell} {lo : Nat} (h : memWfFrom (some lo) m = true) : memWfFrom none m = true := by
  cases m with
  | nil => rfl
  | cons e r =>
    obtain ⟨k, v⟩ := e
    simp only [memWfFrom, Bool.and_eq_true] at h ⊢
    exact ⟨⟨trivial, h.1.2⟩, h.2⟩

/-- A write above `lo` keeps the canonical form above `lo`. -/
theorem memPut_wfFrom {m : List Host.Cell} {lo a : Nat} {b : Byte} (h : memWfFrom (some lo) m = true) (ha : lo < a) :
    memWfFrom (some lo) (memPut m a b) = true := by
  induction m generalizing lo with
  | nil =>
    by_cases hb : b = unlisted <;> simp [memPut, memWfFrom, hb, ha]
  | cons e r ih =>
    obtain ⟨k, v⟩ := e
    have h0 := h
    simp only [memWfFrom, Bool.and_eq_true, decide_eq_true_eq, bne_iff_ne] at h
    obtain ⟨⟨hk, hv⟩, hr⟩ := h
    rcases Nat.lt_trichotomy a k with hlt | heq | hgt
    · by_cases hb : b = unlisted
      · simpa [memPut, hlt, hb] using h0
      · simp [memPut, hlt, hb, memWfFrom, ha, hv, hr]
    · subst heq
      by_cases hb : b = unlisted
      · simpa [memPut, hb] using memWfFrom_weaken hr (by omega)
      · simp [memPut, hb, memWfFrom, ha, hr]
    · have h1 : ¬ a < k := by omega
      have h2 : ¬ a = k := by omega
      simp [memPut, h1, h2, memWfFrom, hk, hv, ih hr hgt]

/-- Every write keeps the canonical form. -/
theorem memPut_wf {m : List Host.Cell} {a : Nat} {b : Byte} (h : Memory.wf m = true) : Memory.wf (memPut m a b) = true := by
  unfold Memory.wf at *
  cases m with
  | nil => by_cases hb : b = unlisted <;> simp [memPut, memWfFrom, hb]
  | cons e r =>
    obtain ⟨k, v⟩ := e
    have h0 := h
    simp only [memWfFrom, Bool.and_eq_true, bne_iff_ne, true_and] at h
    obtain ⟨hv, hr⟩ := h
    rcases Nat.lt_trichotomy a k with hlt | heq | hgt
    · by_cases hb : b = unlisted
      · simpa [memPut, hlt, hb] using h0
      · simp [memPut, hlt, hb, memWfFrom, hv, hr]
    · subst heq
      by_cases hb : b = unlisted
      · simpa [memPut, hb] using memWfFrom_none hr
      · simp [memPut, hb, memWfFrom, hr]
    · have h1 : ¬ a < k := by omega
      have h2 : ¬ a = k := by omega
      simp [memPut, h1, h2, memWfFrom, hv, memPut_wfFrom hr hgt]

theorem memGet_memPut_from {m : List Host.Cell} {lo a x : Nat} {b : Byte} (h : memWfFrom (some lo) m = true) :
    memGet (memPut m a b) x = if x = a then b else memGet m x := by
  induction m generalizing lo with
  | nil =>
    by_cases hb : b = unlisted
    · simp [memPut, memGet, hb]
    · by_cases hx : x = a
      · simp [memPut, memGet, hb, hx]
      · simp [memPut, memGet, hb, hx, Ne.symm hx]
  | cons e r ih =>
    obtain ⟨k, v⟩ := e
    simp only [memWfFrom, Bool.and_eq_true, decide_eq_true_eq, bne_iff_ne] at h
    obtain ⟨⟨hk, hv⟩, hr⟩ := h
    rcases Nat.lt_trichotomy a k with hlt | heq | hgt
    · by_cases hb : b = unlisted
      · by_cases hx : x = a
        · subst hx
          have h3 : ¬ k = x := by omega
          simp [memPut, hlt, hb, memGet, h3, memGet_below hr (by omega : x ≤ k)]
        · simp [memPut, hlt, hb, memGet, hx]
      · by_cases hx : x = a
        · simp [memPut, hlt, hb, memGet, hx]
        · simp [memPut, hlt, hb, memGet, hx, Ne.symm hx]
    · subst heq
      by_cases hb : b = unlisted
      · by_cases hx : x = a
        · subst hx
          simp [memPut, hb, memGet_below hr (Nat.le_refl _)]
        · simp [memPut, hb, memGet, hx, Ne.symm hx]
      · by_cases hx : x = a
        · simp [memPut, hb, memGet, hx]
        · simp [memPut, hb, memGet, hx, Ne.symm hx]
    · have h1 : ¬ a < k := by omega
      have h2 : ¬ a = k := by omega
      simp only [memPut, h1, if_false, beq_iff_eq, h2, memGet, ih hr]
      by_cases hx : k = x
      · have : ¬ x = a := by omega
        simp [hx, this]
      · simp [hx]

/-- Reading after a write: the byte written, or what stood there. -/
theorem memGet_memPut {m : List Host.Cell} (a x : Nat) (b : Byte) (h : Memory.wf m = true) :
    memGet (memPut m a b) x = if x = a then b else memGet m x := by
  cases m with
  | nil =>
    by_cases hb : b = unlisted
    · simp [memPut, memGet, hb]
    · by_cases hx : x = a
      · simp [memPut, memGet, hb, hx]
      · simp [memPut, memGet, hb, hx, Ne.symm hx]
  | cons e r =>
    obtain ⟨k, v⟩ := e
    unfold Memory.wf at h
    simp only [memWfFrom, Bool.and_eq_true, bne_iff_ne, true_and] at h
    obtain ⟨hv, hr⟩ := h
    by_cases h0 : 0 < k
    · exact memGet_memPut_from (lo := 0) (by simp [memWfFrom, h0, hv, hr])
    · have hk : k = 0 := by omega
      subst hk
      rcases Nat.eq_zero_or_pos a with ha | ha
      · subst ha
        by_cases hb : b = unlisted
        · by_cases hx : x = 0
          · subst hx
            simp [memPut, hb, memGet_below hr (Nat.le_refl _)]
          · simp [memPut, hb, memGet, hx, Ne.symm hx]
        · by_cases hx : x = 0
          · simp [memPut, hb, memGet, hx]
          · simp [memPut, hb, memGet, hx, Ne.symm hx]
      · have h1 : ¬ a < 0 := by omega
        have h2 : ¬ a = 0 := by omega
        simp only [memPut, h1, if_false, beq_iff_eq, h2, memGet, memGet_memPut_from hr]
        by_cases hx : 0 = x
        · have : ¬ x = a := by omega
          simp [hx, this]
        · simp [hx]

theorem memWrite_wf {m : List Host.Cell} (a : Nat) (bs : List Byte) (h : Memory.wf m = true) : Memory.wf (memWrite m a bs) = true := by
  induction bs generalizing m a with
  | nil => exact h
  | cons b r ih => exact ih (a + 1) (memPut_wf h)

/-- Reading after writing a run of bytes. -/
theorem memGet_memWrite {m : List Host.Cell} (a x : Nat) (bs : List Byte) (h : Memory.wf m = true) :
    memGet (memWrite m a bs) x = if a ≤ x ∧ x < a + bs.length then bs.getD (x - a) 0 else memGet m x := by
  induction bs generalizing m a with
  | nil =>
    have : ¬ (a ≤ x ∧ x < a) := by omega
    simp [memWrite, this]
  | cons b r ih =>
    simp only [memWrite, ih (a + 1) (memPut_wf h), memGet_memPut a x b h, List.length_cons]
    by_cases h1 : a + 1 ≤ x ∧ x < a + 1 + r.length
    · have h2 : a ≤ x ∧ x < a + (r.length + 1) := by omega
      rw [if_pos h1, if_pos h2]
      have : x - a = (x - (a + 1)) + 1 := by omega
      rw [this, List.getD_cons_succ]
    · rw [if_neg h1]
      by_cases h3 : x = a
      · subst h3
        simp
      · rw [if_neg h3, if_neg (by omega)]

theorem memRead_eq (m : List Host.Cell) (a n : Nat) : memRead m a n = (List.range n).map (fun i => memGet m (a + i)) := by
  induction n generalizing a with
  | zero => rfl
  | succ n ih =>
    rw [memRead, ih, List.range_succ_eq_map, List.map_cons, List.map_map]
    simp only [Nat.add_zero, List.cons.injEq, true_and]
    apply List.map_congr_left
    intro i _
    simp only [Function.comp_apply]
    congr 1
    omega

/-! ### Units of encrypted memory (R100) -/

theorem find_setStamp (u st x : Nat) (l : List (Nat × Nat × Nat)) :
    (setStamp u st l).find? (fun e => e.1 == x) = if x = u then some (u, st, 0) else l.find? (fun e => e.1 == x) := by
  induction l with
  | nil =>
    by_cases hx : x = u
    · simp [setStamp, hx]
    · simp [setStamp, hx, Ne.symm hx]
  | cons e r ih =>
    unfold setStamp
    by_cases hx : x = u
    · subst hx
      split
      · simp
      · split
        · simp
        · rename_i h1 h2
          have : ¬ e.1 = x := by simp at h2; omega
          simp [this, ih]
    · split
      · simp [Ne.symm hx]
      · split
        · rename_i h1 h2
          have h2 : u = e.1 := by simpa using h2
          have : ¬ e.1 = x := by omega
          simp [Ne.symm hx, this]
        · simp only [List.find?_cons, ih, hx, if_false]

/-- A unit re-encrypted changes memory and the record of its key alone. -/
theorem rekey_eq (s : State) (k u : Nat) : ∃ m l, rekey s k u = { s with mem := m, unitKey := l } := by
  unfold rekey
  dsimp only
  split
  · exact ⟨s.mem, s.unitKey, rfl⟩
  · exact ⟨_, _, rfl⟩

theorem rekey_keys (s : State) (k u : Nat) : (rekey s k u).keys = s.keys := by
  obtain ⟨m, l, h⟩ := rekey_eq s k u
  rw [h]

theorem rekey_wf {s : State} (k u : Nat) (h : s.memOk = true) : (rekey s k u).memOk = true := by
  unfold rekey
  dsimp only
  split
  · exact h
  · generalize (List.range 64).map _ = plain
    exact memWrite_wf (u * 64) plain h

theorem unitStamp_rekey (s : State) (k u x : Nat) :
    unitStamp (rekey s k u) x = if x = u then some (keyStamp s k) else unitStamp s x := by
  unfold rekey
  dsimp only
  split
  · rename_i h
    by_cases hx : x = u
    · subst hx
      simpa using h
    · simp [hx]
  · simp only [unitStamp, find_setStamp]
    by_cases hx : x = u <;> simp [hx]

theorem keyStamp_rekey (s : State) (k u j : Nat) : keyStamp (rekey s k u) j = keyStamp s j := by
  obtain ⟨m, l, h⟩ := rekey_eq s k u
  rw [h]
  rfl

theorem memGet_rekey {s : State} (k u x : Nat) (h : s.memOk = true) (hx : x / 64 ≠ u) :
    memGet (rekey s k u).mem x = memGet s.mem x := by
  unfold rekey
  dsimp only
  split
  · rfl
  · rw [memGet_memWrite _ _ _ h, if_neg]
    simp only [List.length_map, List.length_range]
    omega

theorem unitBytes_rekey {s : State} (k u v : Nat) (h : s.memOk = true) (hv : v ≠ u) :
    unitBytes (rekey s k u) v = unitBytes s v := by
  simp only [unitBytes, memRead_eq]
  apply List.map_congr_left
  intro i hi
  have := List.mem_range.mp hi
  exact memGet_rekey k u _ h (by omega)

/-- R100: re-encrypting a unit under slot `k` changes nothing that `k` reads, and nothing in other units. -/
theorem readKeyed_rekey {s : State} (k u j a : Nat) (h : s.memOk = true) (hj : j = k ∨ a / 64 ≠ u) :
    readKeyed (rekey s k u) j a = readKeyed s j a := by
  by_cases ha : a / 64 = u
  · have hk : j = k := hj.resolve_right (fun h => h ha)
    subst hk
    by_cases hs : unitStamp s u = some (keyStamp s j)
    · simp [rekey, hs]
    · have hst : unitStamp (rekey s j u) (a / 64) = some (keyStamp s j) := by rw [unitStamp_rekey, if_pos ha]
      have hm : memGet (rekey s j u).mem a = readKeyed s j a := by
        have : (rekey s j u).mem = memWrite s.mem (u * 64) ((List.range 64).map (fun i => readKeyed s j (u * 64 + i))) := by
          simp [rekey, hs]
        rw [this, memGet_memWrite _ _ _ h, if_pos (by simp; omega)]
        have h1 : a - u * 64 < 64 := by omega
        rw [List.getD_eq_getElem?_getD, List.getElem?_map, List.getElem?_range h1]
        simp only [Option.map_some, Option.getD_some]
        congr 1
        omega
      conv_lhs => unfold readKeyed
      rw [hst]
      simp only [keyStamp_rekey, beq_self_eq_true, if_true]
      exact hm
  · unfold readKeyed
    rw [unitStamp_rekey, if_neg ha, keyStamp_rekey, memGet_rekey k u a h ha, unitBytes_rekey k u _ h ha]

/-- Re-encryption of several units. -/
def rekeyAll (k : Nat) (us : List Nat) (s : State) : State := us.foldl (fun s u => rekey s k u) s

theorem rekeyAll_eq (k : Nat) (us : List Nat) (s : State) : ∃ m l, rekeyAll k us s = { s with mem := m, unitKey := l } := by
  induction us generalizing s with
  | nil => exact ⟨s.mem, s.unitKey, rfl⟩
  | cons u r ih =>
    obtain ⟨m, l, h⟩ := rekey_eq s k u
    obtain ⟨m', l', h'⟩ := ih (rekey s k u)
    refine ⟨m', l', ?_⟩
    show rekeyAll k r (rekey s k u) = _
    rw [h', h]

theorem rekeyAll_wf (k : Nat) (us : List Nat) {s : State} (h : s.memOk = true) : (rekeyAll k us s).memOk = true := by
  induction us generalizing s with
  | nil => exact h
  | cons u r ih => exact ih (rekey_wf k u h)

theorem readKeyed_rekeyAll (k : Nat) (us : List Nat) {s : State} (j a : Nat) (h : s.memOk = true) (hj : j = k ∨ a / 64 ∉ us) :
    readKeyed (rekeyAll k us s) j a = readKeyed s j a := by
  induction us generalizing s with
  | nil => rfl
  | cons u r ih =>
    have h1 : j = k ∨ a / 64 ∉ r := hj.imp_right (fun h h' => h (List.mem_cons_of_mem _ h'))
    have h2 : j = k ∨ a / 64 ≠ u := hj.imp_right (fun h h' => h (h' ▸ List.mem_cons_self))
    exact (ih (rekey_wf k u h) h1).trans (readKeyed_rekey k u j a h h2)

theorem keyStamp_rekeyAll (k : Nat) (us : List Nat) (s : State) (j : Nat) : keyStamp (rekeyAll k us s) j = keyStamp s j := by
  obtain ⟨m, l, h⟩ := rekeyAll_eq k us s
  rw [h]
  rfl

theorem unitStamp_rekeyAll (k : Nat) (us : List Nat) (s : State) (x : Nat) :
    unitStamp (rekeyAll k us s) x = if x ∈ us then some (keyStamp s k) else unitStamp s x := by
  induction us generalizing s with
  | nil => simp [rekeyAll]
  | cons u r ih =>
    show unitStamp (rekeyAll k r (rekey s k u)) x = _
    rw [ih, keyStamp_rekey, unitStamp_rekey]
    by_cases h1 : x ∈ r
    · simp [h1]
    · by_cases h2 : x = u <;> simp [h1, h2]

theorem memGet_rekeyAll (k : Nat) (us : List Nat) {s : State} (x : Nat) (h : s.memOk = true) (hx : x / 64 ∉ us) :
    memGet (rekeyAll k us s).mem x = memGet s.mem x := by
  induction us generalizing s with
  | nil => rfl
  | cons u r ih =>
    simp only [List.mem_cons, not_or] at hx
    exact (ih (rekey_wf k u h) hx.2).trans (memGet_rekey k u x h hx.1)

theorem mem_unitsOf {a n x : Nat} (h : a ≤ x ∧ x < a + n) : x / 64 ∈ unitsOf a n := by
  have hn : ¬ n = 0 := by omega
  simp only [unitsOf, beq_iff_eq, hn, if_false, List.mem_map, List.mem_range]
  exact ⟨x / 64 - a / 64, by omega, by omega⟩

theorem of_mem_unitsOf {a n u : Nat} (h : u ∈ unitsOf a n) : ∃ x, a ≤ x ∧ x < a + n ∧ x / 64 = u := by
  unfold unitsOf at h
  split at h
  · simp at h
  · rename_i hn
    have hn : n ≠ 0 := by simpa using hn
    simp only [List.mem_map, List.mem_range] at h
    obtain ⟨i, hi, rfl⟩ := h
    by_cases h0 : i = 0
    · exact ⟨a, by omega, by omega, by omega⟩
    · exact ⟨(a / 64 + i) * 64, by omega, by omega, by omega⟩

/-- R100: a write of encrypted bytes through slot `k`: the bytes, read through `k`, and what stands elsewhere. -/
theorem readKeyed_writeKeyed {s : State} (k a : Nat) (bs : List Byte) (j x : Nat) (h : s.memOk = true)
    (hj : j = k ∨ ∀ i < bs.length, x / 64 ≠ (a + i) / 64) :
    readKeyed (writeKeyed k a bs s) j x = if a ≤ x ∧ x < a + bs.length then bs.getD (x - a) 0 else readKeyed s j x := by
  have hw := rekeyAll_wf k (unitsOf a bs.length) h
  have hstamp : ∀ u, unitStamp (writeKeyed k a bs s) u = unitStamp (rekeyAll k (unitsOf a bs.length) s) u := fun _ => rfl
  have hkey : ∀ u, keyStamp (writeKeyed k a bs s) u = keyStamp s u := fun u => keyStamp_rekeyAll k (unitsOf a bs.length) s u
  have hmem : ∀ y, memGet (writeKeyed k a bs s).mem y =
      if a ≤ y ∧ y < a + bs.length then bs.getD (y - a) 0 else memGet (rekeyAll k (unitsOf a bs.length) s).mem y :=
    fun y => memGet_memWrite a y bs hw
  by_cases hu : x / 64 ∈ unitsOf a bs.length
  · have hk : j = k := by
      refine hj.resolve_right (fun hne => ?_)
      obtain ⟨y, h1, h2, h3⟩ := of_mem_unitsOf hu
      refine hne (y - a) (by omega) ?_
      rw [← h3]
      congr 1
      omega
    subst hk
    have h1 : readKeyed (writeKeyed j a bs s) j x = memGet (writeKeyed j a bs s).mem x := by
      unfold readKeyed
      rw [hstamp, unitStamp_rekeyAll, if_pos hu, hkey]
      simp
    rw [h1, hmem]
    by_cases hin : a ≤ x ∧ x < a + bs.length
    · simp [hin]
    · simp only [hin, if_false]
      have h2 := readKeyed_rekeyAll j (unitsOf a bs.length) j x h (Or.inl rfl)
      unfold readKeyed at h2
      rw [unitStamp_rekeyAll, if_pos hu, keyStamp_rekeyAll] at h2
      simpa [readKeyed] using h2
  · have hin : ¬ (a ≤ x ∧ x < a + bs.length) := fun hin => hu (mem_unitsOf hin)
    simp only [hin, if_false]
    have hg : memGet (writeKeyed k a bs s).mem x = memGet s.mem x := by
      rw [hmem, if_neg hin, memGet_rekeyAll _ _ _ h hu]
    have hb : unitBytes (writeKeyed k a bs s) (x / 64) = unitBytes s (x / 64) := by
      simp only [unitBytes, memRead_eq]
      apply List.map_congr_left
      intro i hi
      have hi := List.mem_range.mp hi
      have hd : (x / 64 * 64 + i) / 64 = x / 64 := by omega
      rw [hmem, if_neg, memGet_rekeyAll _ _ _ h (by rw [hd]; exact hu)]
      intro hc
      exact hu (hd ▸ mem_unitsOf hc)
    unfold readKeyed
    rw [hstamp, unitStamp_rekeyAll, if_neg hu, hkey, hg, hb]

end Sys2Proof.Machine
end

