-- ==== Sys2Proof/Laws/PerInstr.lean ====
section
/-! SUPPORT. One fact for each constructor of `Instr`: the fields that the encoder gives an operation fit those of a slot word
(R123, R139 to R143). -/

namespace Sys2Proof.Laws.EncodedFields

/-- R123: unit, OPC and operand bits of an operation's encoding fit their fields of 3, 7 and 21 bits. -/
def Statement (i : Instr) : Prop := ∀ u o x, encodeFields i = some (u, o, x) → u < 8 ∧ o < 128 ∧ x < 2097152

/-- A field of `w` bits at bit `lo` ends below bit `lo + w`. -/
theorem sh_le {w : Nat} (x : BitVec w) (lo : Nat) : sh x lo + 2 ^ lo ≤ 2 ^ w * 2 ^ lo := by
  have h := x.isLt
  unfold sh
  calc x.toNat * 2 ^ lo + 2 ^ lo = (x.toNat + 1) * 2 ^ lo := by rw [Nat.add_mul, Nat.one_mul]
    _ ≤ 2 ^ w * 2 ^ lo := Nat.mul_le_mul_right _ h

theorem fits {i : Instr} {u o x : Nat} (h : encodeFields i = some (u, o, x)) (b : u < 8 ∧ o < 128 ∧ x < 2097152) : Statement i := by
  intro u' o' x' h'
  rw [h] at h'
  cases h'
  exact b

theorem none {i : Instr} (h : encodeFields i = Option.none) : Statement i := by
  intro u o x h'
  rw [h] at h'
  cases h'

theorem cluster_unit (v : Cluster) : v.unit < 8 := by cases v <;> decide

theorem engine_unit (e : Engine) : e.unit < 8 := by cases e <;> decide

theorem nop : ∀ x, Statement (.nop x) := fun x => fits rfl ⟨by decide, by decide, by have := sh_le x 0; omega⟩
theorem li : ∀ d i, Statement (.li d i) := fun d i => fits rfl ⟨by decide, by decide, by have := sh_le d 15; have := sh_le i 0; omega⟩
theorem lih : ∀ d i, Statement (.lih d i) := fun d i => fits rfl ⟨by decide, by decide, by have := sh_le d 15; have := sh_le i 0; omega⟩
theorem mov : ∀ d a, Statement (.mov d a) := fun d a => fits rfl ⟨by decide, by decide, by have := sh_le d 15; have := sh_le a 9; omega⟩
theorem add : ∀ d a b, Statement (.add d a b) := fun d a b => fits rfl ⟨by decide, by decide, by have := sh_le d 15; have := sh_le a 9; have := sh_le b 3; omega⟩
theorem addi : ∀ d a i, Statement (.addi d a i) := fun d a i => fits rfl ⟨by decide, by decide, by have := sh_le d 15; have := sh_le a 9; have := sh_le i 0; omega⟩
theorem sub : ∀ d a b, Statement (.sub d a b) := fun d a b => fits rfl ⟨by decide, by decide, by have := sh_le d 15; have := sh_le a 9; have := sh_le b 3; omega⟩
theorem mul : ∀ d a b, Statement (.mul d a b) := fun d a b => fits rfl ⟨by decide, by decide, by have := sh_le d 15; have := sh_le a 9; have := sh_le b 3; omega⟩
theorem mulhs : ∀ d a b, Statement (.mulhs d a b) := fun d a b => fits rfl ⟨by decide, by decide, by have := sh_le d 15; have := sh_le a 9; have := sh_le b 3; omega⟩
theorem mulhu : ∀ d a b, Statement (.mulhu d a b) := fun d a b => fits rfl ⟨by decide, by decide, by have := sh_le d 15; have := sh_le a 9; have := sh_le b 3; omega⟩
theorem divs : ∀ d a b, Statement (.divs d a b) := fun d a b => fits rfl ⟨by decide, by decide, by have := sh_le d 15; have := sh_le a 9; have := sh_le b 3; omega⟩
theorem divu : ∀ d a b, Statement (.divu d a b) := fun d a b => fits rfl ⟨by decide, by decide, by have := sh_le d 15; have := sh_le a 9; have := sh_le b 3; omega⟩
theorem rems : ∀ d a b, Statement (.rems d a b) := fun d a b => fits rfl ⟨by decide, by decide, by have := sh_le d 15; have := sh_le a 9; have := sh_le b 3; omega⟩
theorem remu : ∀ d a b, Statement (.remu d a b) := fun d a b => fits rfl ⟨by decide, by decide, by have := sh_le d 15; have := sh_le a 9; have := sh_le b 3; omega⟩
theorem and : ∀ d a b, Statement (.and d a b) := fun d a b => fits rfl ⟨by decide, by decide, by have := sh_le d 15; have := sh_le a 9; have := sh_le b 3; omega⟩
theorem andi : ∀ d a i, Statement (.andi d a i) := fun d a i => fits rfl ⟨by decide, by decide, by have := sh_le d 15; have := sh_le a 9; have := sh_le i 0; omega⟩
theorem or : ∀ d a b, Statement (.or d a b) := fun d a b => fits rfl ⟨by decide, by decide, by have := sh_le d 15; have := sh_le a 9; have := sh_le b 3; omega⟩
theorem ori : ∀ d a i, Statement (.ori d a i) := fun d a i => fits rfl ⟨by decide, by decide, by have := sh_le d 15; have := sh_le a 9; have := sh_le i 0; omega⟩
theorem xor : ∀ d a b, Statement (.xor d a b) := fun d a b => fits rfl ⟨by decide, by decide, by have := sh_le d 15; have := sh_le a 9; have := sh_le b 3; omega⟩
theorem xori : ∀ d a i, Statement (.xori d a i) := fun d a i => fits rfl ⟨by decide, by decide, by have := sh_le d 15; have := sh_le a 9; have := sh_le i 0; omega⟩
theorem andn : ∀ d a b, Statement (.andn d a b) := fun d a b => fits rfl ⟨by decide, by decide, by have := sh_le d 15; have := sh_le a 9; have := sh_le b 3; omega⟩
theorem shl : ∀ d a b, Statement (.shl d a b) := fun d a b => fits rfl ⟨by decide, by decide, by have := sh_le d 15; have := sh_le a 9; have := sh_le b 3; omega⟩
theorem shli : ∀ d a i, Statement (.shli d a i) := fun d a i => fits rfl ⟨by decide, by decide, by have := sh_le d 15; have := sh_le a 9; have := sh_le i 0; omega⟩
theorem shr : ∀ d a b, Statement (.shr d a b) := fun d a b => fits rfl ⟨by decide, by decide, by have := sh_le d 15; have := sh_le a 9; have := sh_le b 3; omega⟩
theorem shri : ∀ d a i, Statement (.shri d a i) := fun d a i => fits rfl ⟨by decide, by decide, by have := sh_le d 15; have := sh_le a 9; have := sh_le i 0; omega⟩
theorem sra : ∀ d a b, Statement (.sra d a b) := fun d a b => fits rfl ⟨by decide, by decide, by have := sh_le d 15; have := sh_le a 9; have := sh_le b 3; omega⟩
theorem srai : ∀ d a i, Statement (.srai d a i) := fun d a i => fits rfl ⟨by decide, by decide, by have := sh_le d 15; have := sh_le a 9; have := sh_le i 0; omega⟩
theorem ror : ∀ d a b, Statement (.ror d a b) := fun d a b => fits rfl ⟨by decide, by decide, by have := sh_le d 15; have := sh_le a 9; have := sh_le b 3; omega⟩
theorem clz : ∀ d a, Statement (.clz d a) := fun d a => fits rfl ⟨by decide, by decide, by have := sh_le d 15; have := sh_le a 9; omega⟩
theorem ctz : ∀ d a, Statement (.ctz d a) := fun d a => fits rfl ⟨by decide, by decide, by have := sh_le d 15; have := sh_le a 9; omega⟩
theorem popc : ∀ d a, Statement (.popc d a) := fun d a => fits rfl ⟨by decide, by decide, by have := sh_le d 15; have := sh_le a 9; omega⟩
theorem mins : ∀ d a b, Statement (.mins d a b) := fun d a b => fits rfl ⟨by decide, by decide, by have := sh_le d 15; have := sh_le a 9; have := sh_le b 3; omega⟩
theorem maxs : ∀ d a b, Statement (.maxs d a b) := fun d a b => fits rfl ⟨by decide, by decide, by have := sh_le d 15; have := sh_le a 9; have := sh_le b 3; omega⟩
theorem minu : ∀ d a b, Statement (.minu d a b) := fun d a b => fits rfl ⟨by decide, by decide, by have := sh_le d 15; have := sh_le a 9; have := sh_le b 3; omega⟩
theorem maxu : ∀ d a b, Statement (.maxu d a b) := fun d a b => fits rfl ⟨by decide, by decide, by have := sh_le d 15; have := sh_le a 9; have := sh_le b 3; omega⟩
theorem sel : ∀ d a b p, Statement (.sel d a b p) := fun d a b p => fits rfl ⟨by decide, by decide, by have := sh_le d 15; have := sh_le a 9; have := sh_le b 3; have := sh_le p 0; omega⟩
theorem cmp : ∀ c p a b, Statement (.cmp c p a b) := fun c p a b => fits rfl ⟨by decide, by decide, by have := sh_le c 18; have := sh_le p 15; have := sh_le a 9; have := sh_le b 3; omega⟩
theorem cmpi : ∀ c p a i, Statement (.cmpi c p a i) := fun c p a i => fits rfl ⟨by decide, by decide, by have := sh_le c 18; have := sh_le p 15; have := sh_le a 9; have := sh_le i 0; omega⟩
theorem plog : ∀ d a b o, Statement (.plog d a b o) := fun d a b o => fits rfl ⟨by decide, by decide, by have := sh_le d 15; have := sh_le a 9; have := sh_le b 3; have := sh_le o 0; omega⟩
theorem agen : ∀ d a b l, Statement (.agen d a b l) := fun d a b l => fits rfl ⟨by decide, by decide, by have := sh_le d 15; have := sh_le a 9; have := sh_le b 3; have := sh_le l 0; omega⟩
theorem bxt : ∀ d a b s, Statement (.bxt d a b s) := fun d a b s => fits rfl ⟨by decide, by decide, by have := sh_le d 15; have := sh_le a 9; have := sh_le b 3; have := sh_le s 0; omega⟩
theorem bin : ∀ d a b, Statement (.bin d a b) := fun d a b => fits rfl ⟨by decide, by decide, by have := sh_le d 15; have := sh_le a 9; have := sh_le b 3; omega⟩
theorem fadds : ∀ d a b, Statement (.fadds d a b) := fun d a b => fits rfl ⟨by decide, by decide, by have := sh_le d 15; have := sh_le a 9; have := sh_le b 3; omega⟩
theorem fmuls : ∀ d a b, Statement (.fmuls d a b) := fun d a b => fits rfl ⟨by decide, by decide, by have := sh_le d 15; have := sh_le a 9; have := sh_le b 3; omega⟩
theorem ffmas : ∀ d a b, Statement (.ffmas d a b) := fun d a b => fits rfl ⟨by decide, by decide, by have := sh_le d 15; have := sh_le a 9; have := sh_le b 3; omega⟩
theorem fcmps : ∀ c p a b, Statement (.fcmps c p a b) := fun c p a b => fits rfl ⟨by decide, by decide, by have := sh_le c 18; have := sh_le p 15; have := sh_le a 9; have := sh_le b 3; omega⟩
theorem fcvts : ∀ d a k, Statement (.fcvts d a k) := fun d a k => fits rfl ⟨by decide, by decide, by have := sh_le d 15; have := sh_le a 9; have := sh_le k 0; omega⟩
theorem csrr : ∀ d n, Statement (.csrr d n) := fun d n => fits rfl ⟨by decide, by decide, by have := sh_le d 15; have := sh_le n 0; omega⟩
theorem csrw : ∀ a n, Statement (.csrw a n) := fun a n => fits rfl ⟨by decide, by decide, by have := sh_le a 9; have := sh_le n 0; omega⟩
theorem crd : ∀ d n, Statement (.crd d n) := fun d n => fits rfl ⟨by decide, by decide, by have := sh_le d 15; have := sh_le n 0; omega⟩
theorem pushm : ∀ a b f, Statement (.pushm a b f) := fun a b f => fits rfl ⟨by decide, by decide, by have := sh_le a 9; have := sh_le b 3; have := sh_le f 0; omega⟩
theorem popm : ∀ a b f, Statement (.popm a b f) := fun a b f => fits rfl ⟨by decide, by decide, by have := sh_le a 9; have := sh_le b 3; have := sh_le f 0; omega⟩
theorem br : ∀ i, Statement (.br i) := fun i => fits rfl ⟨by decide, by decide, by have := sh_le i 0; omega⟩
theorem call : ∀ d i, Statement (.call d i) := fun d i => fits rfl ⟨by decide, by decide, by have := sh_le d 15; have := sh_le i 0; omega⟩
theorem callr : ∀ d a, Statement (.callr d a) := fun d a => fits rfl ⟨by decide, by decide, by have := sh_le d 15; have := sh_le a 9; omega⟩
theorem ret : ∀ a, Statement (.ret a) := fun a => fits rfl ⟨by decide, by decide, by have := sh_le a 9; omega⟩
theorem jr : ∀ a i, Statement (.jr a i) := fun a i => fits rfl ⟨by decide, by decide, by have := sh_le a 9; have := sh_le i 0; omega⟩
theorem loop : ∀ l a, Statement (.loop l a) := fun l a => fits rfl ⟨by decide, by decide, by have := sh_le l 15; have := sh_le a 9; omega⟩
theorem loopImm : ∀ l c, Statement (.loopImm l c) := fun l c => fits rfl ⟨by decide, by decide, by have := sh_le l 15; have := sh_le c 3; omega⟩
theorem loopx : ∀ k, Statement (.loopx k) := fun k => fits rfl ⟨by decide, by decide, by have := sh_le k 0; omega⟩
theorem repv : ∀ s a, Statement (.repv s a) := fun s a => fits rfl ⟨by decide, by decide, by have := sh_le s 15; have := sh_le a 9; omega⟩
theorem repvImm : ∀ s c, Statement (.repvImm s c) := fun s c => fits rfl ⟨by decide, by decide, by have := sh_le s 15; have := sh_le c 3; omega⟩
theorem layer : ∀ n, Statement (.layer n) := fun n => fits rfl ⟨by decide, by decide, by have := sh_le n 0; omega⟩
theorem lret : Statement .lret := fits rfl ⟨by decide, by decide, by decide⟩
theorem tspawn : ∀ a, Statement (.tspawn a) := fun a => fits rfl ⟨by decide, by decide, by have := sh_le a 9; omega⟩
theorem texit : ∀ a, Statement (.texit a) := fun a => fits rfl ⟨by decide, by decide, by have := sh_le a 9; omega⟩
theorem tjoin : ∀ d a, Statement (.tjoin d a) := fun d a => fits rfl ⟨by decide, by decide, by have := sh_le d 15; have := sh_le a 9; omega⟩
theorem waitSw : ∀ s a b, Statement (.waitSw s a b) := fun s a b => fits rfl ⟨by decide, by decide, by have := sh_le s 15; have := sh_le a 9; have := sh_le b 3; omega⟩
theorem waitBs : ∀ s a b, Statement (.waitBs s a b) := fun s a b => fits rfl ⟨by decide, by decide, by have := sh_le s 15; have := sh_le a 9; have := sh_le b 3; omega⟩
theorem yield : Statement .yield := fits rfl ⟨by decide, by decide, by decide⟩
theorem hwin : ∀ n, Statement (.hwin n) := fun n => fits rfl ⟨by decide, by decide, by have := sh_le n 0; omega⟩
theorem opsel : ∀ k, Statement (.opsel k) := fun k => fits rfl ⟨by decide, by decide, by have := sh_le k 0; omega⟩
theorem fidset : ∀ f, Statement (.fidset f) := fun f => fits rfl ⟨by decide, by decide, by have := sh_le f 0; omega⟩
theorem psub : ∀ a b s, Statement (.psub a b s) := fun a b s => fits rfl ⟨by decide, by decide, by have := sh_le a 9; have := sh_le b 3; have := sh_le s 0; omega⟩
theorem rdtick : ∀ d, Statement (.rdtick d) := fun d => fits rfl ⟨by decide, by decide, by have := sh_le d 15; omega⟩
theorem trap : ∀ n, Statement (.trap n) := fun n => fits rfl ⟨by decide, by decide, by have := sh_le n 0; omega⟩
theorem svc : ∀ n, Statement (.svc n) := fun n => fits rfl ⟨by decide, by decide, by have := sh_le n 0; omega⟩
theorem eret : Statement .eret := fits rfl ⟨by decide, by decide, by decide⟩
theorem tlbir : ∀ a, Statement (.tlbir a) := fun a => fits rfl ⟨by decide, by decide, by have := sh_le a 9; omega⟩
theorem tlbirAll : ∀ a, Statement (.tlbirAll a) := fun a => fits rfl ⟨by decide, by decide, by have := sh_le a 9; omega⟩
theorem ldbS : ∀ d a f i, Statement (.ldbS d a f i) := fun d a f i => fits rfl ⟨by decide, by decide, by have := sh_le d 15; have := sh_le a 9; have := sh_le f 8; have := sh_le i 0; omega⟩
theorem ldbU : ∀ d a f i, Statement (.ldbU d a f i) := fun d a f i => fits rfl ⟨by decide, by decide, by have := sh_le d 15; have := sh_le a 9; have := sh_le f 8; have := sh_le i 0; omega⟩
theorem ldhS : ∀ d a f i, Statement (.ldhS d a f i) := fun d a f i => fits rfl ⟨by decide, by decide, by have := sh_le d 15; have := sh_le a 9; have := sh_le f 8; have := sh_le i 0; omega⟩
theorem ldhU : ∀ d a f i, Statement (.ldhU d a f i) := fun d a f i => fits rfl ⟨by decide, by decide, by have := sh_le d 15; have := sh_le a 9; have := sh_le f 8; have := sh_le i 0; omega⟩
theorem ldwS : ∀ d a f i, Statement (.ldwS d a f i) := fun d a f i => fits rfl ⟨by decide, by decide, by have := sh_le d 15; have := sh_le a 9; have := sh_le f 8; have := sh_le i 0; omega⟩
theorem ldwU : ∀ d a f i, Statement (.ldwU d a f i) := fun d a f i => fits rfl ⟨by decide, by decide, by have := sh_le d 15; have := sh_le a 9; have := sh_le f 8; have := sh_le i 0; omega⟩
theorem lddS : ∀ d a f i, Statement (.lddS d a f i) := fun d a f i => fits rfl ⟨by decide, by decide, by have := sh_le d 15; have := sh_le a 9; have := sh_le f 8; have := sh_le i 0; omega⟩
theorem lddU : ∀ d a f i, Statement (.lddU d a f i) := fun d a f i => fits rfl ⟨by decide, by decide, by have := sh_le d 15; have := sh_le a 9; have := sh_le f 8; have := sh_le i 0; omega⟩
theorem stb : ∀ d a f i, Statement (.stb d a f i) := fun d a f i => fits rfl ⟨by decide, by decide, by have := sh_le d 15; have := sh_le a 9; have := sh_le f 8; have := sh_le i 0; omega⟩
theorem sth : ∀ d a f i, Statement (.sth d a f i) := fun d a f i => fits rfl ⟨by decide, by decide, by have := sh_le d 15; have := sh_le a 9; have := sh_le f 8; have := sh_le i 0; omega⟩
theorem stw : ∀ d a f i, Statement (.stw d a f i) := fun d a f i => fits rfl ⟨by decide, by decide, by have := sh_le d 15; have := sh_le a 9; have := sh_le f 8; have := sh_le i 0; omega⟩
theorem std : ∀ d a f i, Statement (.std d a f i) := fun d a f i => fits rfl ⟨by decide, by decide, by have := sh_le d 15; have := sh_le a 9; have := sh_le f 8; have := sh_le i 0; omega⟩
theorem cas : ∀ d a b o w, Statement (.cas d a b o w) := fun d a b o w => fits rfl ⟨by decide, by decide, by have := sh_le d 15; have := sh_le a 9; have := sh_le b 3; have := sh_le o 1; have := sh_le w 0; omega⟩
theorem fence : ∀ s m, Statement (.fence s m) := fun s m => fits rfl ⟨by decide, by decide, by have := sh_le s 16; have := sh_le m 0; omega⟩
theorem synci : Statement .synci := fits rfl ⟨by decide, by decide, by decide⟩
theorem synca : Statement .synca := fits rfl ⟨by decide, by decide, by decide⟩
theorem syncaAll : Statement .syncaAll := fits rfl ⟨by decide, by decide, by decide⟩
theorem amoAdd : ∀ d a b o w, Statement (.amoAdd d a b o w) := fun d a b o w => fits rfl ⟨by decide, by decide, by have := sh_le d 15; have := sh_le a 9; have := sh_le b 3; have := sh_le o 1; have := sh_le w 0; omega⟩
theorem amoAnd : ∀ d a b o w, Statement (.amoAnd d a b o w) := fun d a b o w => fits rfl ⟨by decide, by decide, by have := sh_le d 15; have := sh_le a 9; have := sh_le b 3; have := sh_le o 1; have := sh_le w 0; omega⟩
theorem amoOr : ∀ d a b o w, Statement (.amoOr d a b o w) := fun d a b o w => fits rfl ⟨by decide, by decide, by have := sh_le d 15; have := sh_le a 9; have := sh_le b 3; have := sh_le o 1; have := sh_le w 0; omega⟩
theorem amoXor : ∀ d a b o w, Statement (.amoXor d a b o w) := fun d a b o w => fits rfl ⟨by decide, by decide, by have := sh_le d 15; have := sh_le a 9; have := sh_le b 3; have := sh_le o 1; have := sh_le w 0; omega⟩
theorem amoMin : ∀ d a b o w, Statement (.amoMin d a b o w) := fun d a b o w => fits rfl ⟨by decide, by decide, by have := sh_le d 15; have := sh_le a 9; have := sh_le b 3; have := sh_le o 1; have := sh_le w 0; omega⟩
theorem amoMax : ∀ d a b o w, Statement (.amoMax d a b o w) := fun d a b o w => fits rfl ⟨by decide, by decide, by have := sh_le d 15; have := sh_le a 9; have := sh_le b 3; have := sh_le o 1; have := sh_le w 0; omega⟩
theorem amoMinu : ∀ d a b o w, Statement (.amoMinu d a b o w) := fun d a b o w => fits rfl ⟨by decide, by decide, by have := sh_le d 15; have := sh_le a 9; have := sh_le b 3; have := sh_le o 1; have := sh_le w 0; omega⟩
theorem amoMaxu : ∀ d a b o w, Statement (.amoMaxu d a b o w) := fun d a b o w => fits rfl ⟨by decide, by decide, by have := sh_le d 15; have := sh_le a 9; have := sh_le b 3; have := sh_le o 1; have := sh_le w 0; omega⟩
theorem amoSwap : ∀ d a b o w, Statement (.amoSwap d a b o w) := fun d a b o w => fits rfl ⟨by decide, by decide, by have := sh_le d 15; have := sh_le a 9; have := sh_le b 3; have := sh_le o 1; have := sh_le w 0; omega⟩
theorem amoFadd32 : ∀ d a b o, Statement (.amoFadd32 d a b o) := fun d a b o => fits rfl ⟨by decide, by decide, by have := sh_le d 15; have := sh_le a 9; have := sh_le b 3; have := sh_le o 1; omega⟩
theorem bars : ∀ s a b, Statement (.bars s a b) := fun s a b => fits rfl ⟨by decide, by decide, by have := sh_le s 15; have := sh_le a 9; have := sh_le b 3; omega⟩
theorem bara : ∀ d a b, Statement (.bara d a b) := fun d a b => fits rfl ⟨by decide, by decide, by have := sh_le d 15; have := sh_le a 9; have := sh_le b 3; omega⟩
theorem barrt : ∀ a, Statement (.barrt a) := fun a => fits rfl ⟨by decide, by decide, by have := sh_le a 9; omega⟩
theorem barn : ∀ s i, Statement (.barn s i) := fun s i => fits rfl ⟨by decide, by decide, by have := sh_le s 15; have := sh_le i 3; omega⟩
theorem barnA : ∀ s i, Statement (.barnA s i) := fun s i => fits rfl ⟨by decide, by decide, by have := sh_le s 15; have := sh_le i 3; omega⟩
theorem copen : ∀ d a b, Statement (.copen d a b) := fun d a b => fits rfl ⟨by decide, by decide, by have := sh_le d 15; have := sh_le a 9; have := sh_le b 3; omega⟩
theorem chold : ∀ d a b, Statement (.chold d a b) := fun d a b => fits rfl ⟨by decide, by decide, by have := sh_le d 15; have := sh_le a 9; have := sh_le b 3; omega⟩
theorem cclose : ∀ a, Statement (.cclose a) := fun a => fits rfl ⟨by decide, by decide, by have := sh_le a 9; omega⟩
theorem cstat : ∀ d a, Statement (.cstat d a) := fun d a => fits rfl ⟨by decide, by decide, by have := sh_le d 15; have := sh_le a 9; omega⟩
theorem npost : ∀ d a, Statement (.npost d a) := fun d a => fits rfl ⟨by decide, by decide, by have := sh_le d 15; have := sh_le a 9; omega⟩
theorem vadd : ∀ v d a b m, Statement (.vadd v d a b m) := fun v d a b m => fits rfl ⟨cluster_unit v, by decide, by have := sh_le d 15; have := sh_le a 9; have := sh_le b 3; have := sh_le m 0; omega⟩
theorem vsub : ∀ v d a b m, Statement (.vsub v d a b m) := fun v d a b m => fits rfl ⟨cluster_unit v, by decide, by have := sh_le d 15; have := sh_le a 9; have := sh_le b 3; have := sh_le m 0; omega⟩
theorem vmul : ∀ v d a b m, Statement (.vmul v d a b m) := fun v d a b m => fits rfl ⟨cluster_unit v, by decide, by have := sh_le d 15; have := sh_le a 9; have := sh_le b 3; have := sh_le m 0; omega⟩
theorem vfma : ∀ v d a b m, Statement (.vfma v d a b m) := fun v d a b m => fits rfl ⟨cluster_unit v, by decide, by have := sh_le d 15; have := sh_le a 9; have := sh_le b 3; have := sh_le m 0; omega⟩
theorem vfms : ∀ v d a b m, Statement (.vfms v d a b m) := fun v d a b m => fits rfl ⟨cluster_unit v, by decide, by have := sh_le d 15; have := sh_le a 9; have := sh_le b 3; have := sh_le m 0; omega⟩
theorem vfnma : ∀ v d a b m, Statement (.vfnma v d a b m) := fun v d a b m => fits rfl ⟨cluster_unit v, by decide, by have := sh_le d 15; have := sh_le a 9; have := sh_le b 3; have := sh_le m 0; omega⟩
theorem vmin : ∀ v d a b m, Statement (.vmin v d a b m) := fun v d a b m => fits rfl ⟨cluster_unit v, by decide, by have := sh_le d 15; have := sh_le a 9; have := sh_le b 3; have := sh_le m 0; omega⟩
theorem vmax : ∀ v d a b m, Statement (.vmax v d a b m) := fun v d a b m => fits rfl ⟨cluster_unit v, by decide, by have := sh_le d 15; have := sh_le a 9; have := sh_le b 3; have := sh_le m 0; omega⟩
theorem vabs : ∀ v d a m, Statement (.vabs v d a m) := fun v d a m => fits rfl ⟨cluster_unit v, by decide, by have := sh_le d 15; have := sh_le a 9; have := sh_le m 0; omega⟩
theorem vneg : ∀ v d a m, Statement (.vneg v d a m) := fun v d a m => fits rfl ⟨cluster_unit v, by decide, by have := sh_le d 15; have := sh_le a 9; have := sh_le m 0; omega⟩
theorem vrcp : ∀ v d a m, Statement (.vrcp v d a m) := fun v d a m => fits rfl ⟨cluster_unit v, by decide, by have := sh_le d 15; have := sh_le a 9; have := sh_le m 0; omega⟩
theorem vrsq : ∀ v d a m, Statement (.vrsq v d a m) := fun v d a m => fits rfl ⟨cluster_unit v, by decide, by have := sh_le d 15; have := sh_le a 9; have := sh_le m 0; omega⟩
theorem vexp2 : ∀ v d a m, Statement (.vexp2 v d a m) := fun v d a m => fits rfl ⟨cluster_unit v, by decide, by have := sh_le d 15; have := sh_le a 9; have := sh_le m 0; omega⟩
theorem vlog2 : ∀ v d a m, Statement (.vlog2 v d a m) := fun v d a m => fits rfl ⟨cluster_unit v, by decide, by have := sh_le d 15; have := sh_le a 9; have := sh_le m 0; omega⟩
theorem viadd : ∀ v d a b m, Statement (.viadd v d a b m) := fun v d a b m => fits rfl ⟨cluster_unit v, by decide, by have := sh_le d 15; have := sh_le a 9; have := sh_le b 3; have := sh_le m 0; omega⟩
theorem visub : ∀ v d a b m, Statement (.visub v d a b m) := fun v d a b m => fits rfl ⟨cluster_unit v, by decide, by have := sh_le d 15; have := sh_le a 9; have := sh_le b 3; have := sh_le m 0; omega⟩
theorem vimul : ∀ v d a b m, Statement (.vimul v d a b m) := fun v d a b m => fits rfl ⟨cluster_unit v, by decide, by have := sh_le d 15; have := sh_le a 9; have := sh_le b 3; have := sh_le m 0; omega⟩
theorem vimad : ∀ v d a b m, Statement (.vimad v d a b m) := fun v d a b m => fits rfl ⟨cluster_unit v, by decide, by have := sh_le d 15; have := sh_le a 9; have := sh_le b 3; have := sh_le m 0; omega⟩
theorem vimin : ∀ v d a b m, Statement (.vimin v d a b m) := fun v d a b m => fits rfl ⟨cluster_unit v, by decide, by have := sh_le d 15; have := sh_le a 9; have := sh_le b 3; have := sh_le m 0; omega⟩
theorem vimax : ∀ v d a b m, Statement (.vimax v d a b m) := fun v d a b m => fits rfl ⟨cluster_unit v, by decide, by have := sh_le d 15; have := sh_le a 9; have := sh_le b 3; have := sh_le m 0; omega⟩
theorem vand : ∀ v d a b m, Statement (.vand v d a b m) := fun v d a b m => fits rfl ⟨cluster_unit v, by decide, by have := sh_le d 15; have := sh_le a 9; have := sh_le b 3; have := sh_le m 0; omega⟩
theorem vor : ∀ v d a b m, Statement (.vor v d a b m) := fun v d a b m => fits rfl ⟨cluster_unit v, by decide, by have := sh_le d 15; have := sh_le a 9; have := sh_le b 3; have := sh_le m 0; omega⟩
theorem vxor : ∀ v d a b m, Statement (.vxor v d a b m) := fun v d a b m => fits rfl ⟨cluster_unit v, by decide, by have := sh_le d 15; have := sh_le a 9; have := sh_le b 3; have := sh_le m 0; omega⟩
theorem vnot : ∀ v d a m, Statement (.vnot v d a m) := fun v d a m => fits rfl ⟨cluster_unit v, by decide, by have := sh_le d 15; have := sh_le a 9; have := sh_le m 0; omega⟩
theorem vshl : ∀ v d a b m, Statement (.vshl v d a b m) := fun v d a b m => fits rfl ⟨cluster_unit v, by decide, by have := sh_le d 15; have := sh_le a 9; have := sh_le b 3; have := sh_le m 0; omega⟩
theorem vshr : ∀ v d a b m, Statement (.vshr v d a b m) := fun v d a b m => fits rfl ⟨cluster_unit v, by decide, by have := sh_le d 15; have := sh_le a 9; have := sh_le b 3; have := sh_le m 0; omega⟩
theorem vsra : ∀ v d a b m, Statement (.vsra v d a b m) := fun v d a b m => fits rfl ⟨cluster_unit v, by decide, by have := sh_le d 15; have := sh_le a 9; have := sh_le b 3; have := sh_le m 0; omega⟩
theorem vcmp : ∀ v c d a b m, Statement (.vcmp v c d a b m) := fun v c d a b m => fits rfl ⟨cluster_unit v, by decide, by have := sh_le c 18; have := sh_le d 15; have := sh_le a 9; have := sh_le b 3; have := sh_le m 0; omega⟩
theorem vicmp : ∀ v c d a b m, Statement (.vicmp v c d a b m) := fun v c d a b m => fits rfl ⟨cluster_unit v, by decide, by have := sh_le c 18; have := sh_le d 15; have := sh_le a 9; have := sh_le b 3; have := sh_le m 0; omega⟩
theorem vsel : ∀ v d a b k, Statement (.vsel v d a b k) := fun v d a b k => fits rfl ⟨cluster_unit v, by decide, by have := sh_le d 15; have := sh_le a 9; have := sh_le b 3; have := sh_le k 0; omega⟩
theorem vcx : ∀ v x a b m, Statement (.vcx v x a b m) := fun v x a b m => fits rfl ⟨cluster_unit v, by decide, by have := sh_le x 15; have := sh_le a 9; have := sh_le b 3; have := sh_le m 0; omega⟩
theorem vcvt : ∀ v d a p t m, Statement (.vcvt v d a p t m) := fun v d a p t m => fits rfl ⟨cluster_unit v, by decide, by have := sh_le d 15; have := sh_le a 9; have := sh_le p 7; have := sh_le t 3; have := sh_le m 0; omega⟩
theorem vqnt : ∀ v d a p f, Statement (.vqnt v d a p f) := fun v d a p f => fits rfl ⟨cluster_unit v, by decide, by have := sh_le d 15; have := sh_le a 9; have := sh_le p 5; have := sh_le f 3; omega⟩
theorem vdqnt : ∀ v d a p m, Statement (.vdqnt v d a p m) := fun v d a p m => fits rfl ⟨cluster_unit v, by decide, by have := sh_le d 15; have := sh_le a 9; have := sh_le p 5; have := sh_le m 0; omega⟩
theorem vhist : ∀ v a m, Statement (.vhist v a m) := fun v a m => fits rfl ⟨cluster_unit v, by decide, by have := sh_le a 9; have := sh_le m 0; omega⟩
theorem vhclrRd : ∀ v d, Statement (.vhclrRd v d) := fun v d => fits rfl ⟨cluster_unit v, by decide, by have := sh_le d 15; omega⟩
theorem vhclr : ∀ v, Statement (.vhclr v) := fun v => fits rfl ⟨cluster_unit v, by decide, by decide⟩
theorem vhclrRdc : ∀ v d, Statement (.vhclrRdc v d) := fun v d => fits rfl ⟨cluster_unit v, by decide, by have := sh_le d 15; omega⟩
theorem vtag : ∀ v d a t m, Statement (.vtag v d a t m) := fun v d a t m => fits rfl ⟨cluster_unit v, by decide, by have := sh_le d 15; have := sh_le a 9; have := sh_le t 3; have := sh_le m 0; omega⟩
theorem vreds : ∀ v d a o m, Statement (.vreds v d a o m) := fun v d a o m => fits rfl ⟨cluster_unit v, by decide, by have := sh_le d 15; have := sh_le a 9; have := sh_le o 3; have := sh_le m 0; omega⟩
theorem vscan : ∀ v d a o m, Statement (.vscan v d a o m) := fun v d a o m => fits rfl ⟨cluster_unit v, by decide, by have := sh_le d 15; have := sh_le a 9; have := sh_le o 3; have := sh_le m 0; omega⟩
theorem vperm : ∀ v d a b m, Statement (.vperm v d a b m) := fun v d a b m => fits rfl ⟨cluster_unit v, by decide, by have := sh_le d 15; have := sh_le a 9; have := sh_le b 3; have := sh_le m 0; omega⟩
theorem vshuf : ∀ v d a b p, Statement (.vshuf v d a b p) := fun v d a b p => fits rfl ⟨cluster_unit v, by decide, by have := sh_le d 15; have := sh_le a 9; have := sh_le b 3; have := sh_le p 0; omega⟩
theorem vbcastS : ∀ v d a t, Statement (.vbcastS v d a t) := fun v d a t => fits rfl ⟨cluster_unit v, by decide, by have := sh_le d 15; have := sh_le a 9; have := sh_le t 3; omega⟩
theorem vbcastL : ∀ v d a k, Statement (.vbcastL v d a k) := fun v d a k => fits rfl ⟨cluster_unit v, by decide, by have := sh_le d 15; have := sh_le a 9; have := sh_le k 3; omega⟩
theorem viota : ∀ v d a b m, Statement (.viota v d a b m) := fun v d a b m => fits rfl ⟨cluster_unit v, by decide, by have := sh_le d 15; have := sh_le a 9; have := sh_le b 3; have := sh_le m 0; omega⟩
theorem vmov : ∀ v d a m, Statement (.vmov v d a m) := fun v d a m => fits rfl ⟨cluster_unit v, by decide, by have := sh_le d 15; have := sh_le a 9; have := sh_le m 0; omega⟩
theorem vxfer : ∀ v d a m, Statement (.vxfer v d a m) := fun v d a m => fits rfl ⟨cluster_unit v, by decide, by have := sh_le d 15; have := sh_le a 9; have := sh_le m 0; omega⟩
theorem mlog : ∀ v d a b o, Statement (.mlog v d a b o) := fun v d a b o => fits rfl ⟨cluster_unit v, by decide, by have := sh_le d 15; have := sh_le a 9; have := sh_le b 3; have := sh_le o 0; omega⟩
theorem mpop : ∀ v d a m, Statement (.mpop v d a m) := fun v d a m => fits rfl ⟨cluster_unit v, by decide, by have := sh_le d 15; have := sh_le a 9; have := sh_le m 0; omega⟩
theorem mffs : ∀ v d a m, Statement (.mffs v d a m) := fun v d a m => fits rfl ⟨cluster_unit v, by decide, by have := sh_le d 15; have := sh_le a 9; have := sh_le m 0; omega⟩
theorem mmovs : ∀ v d a, Statement (.mmovs v d a) := fun v d a => fits rfl ⟨cluster_unit v, by decide, by have := sh_le d 15; have := sh_le a 9; omega⟩
theorem mfroms : ∀ v d a, Statement (.mfroms v d a) := fun v d a => fits rfl ⟨cluster_unit v, by decide, by have := sh_le d 15; have := sh_le a 9; omega⟩
theorem ldv : ∀ v d a t m, Statement (.ldv v d a t m) := fun v d a t m => fits rfl ⟨cluster_unit v, by decide, by have := sh_le d 15; have := sh_le a 9; have := sh_le t 3; have := sh_le m 0; omega⟩
theorem stv : ∀ v a b m, Statement (.stv v a b m) := fun v a b m => fits rfl ⟨cluster_unit v, by decide, by have := sh_le a 9; have := sh_le b 3; have := sh_le m 0; omega⟩
theorem ldvs : ∀ v d a b m, Statement (.ldvs v d a b m) := fun v d a b m => fits rfl ⟨cluster_unit v, by decide, by have := sh_le d 15; have := sh_le a 9; have := sh_le b 3; have := sh_le m 0; omega⟩
theorem gath : ∀ v d a b m, Statement (.gath v d a b m) := fun v d a b m => fits rfl ⟨cluster_unit v, by decide, by have := sh_le d 15; have := sh_le a 9; have := sh_le b 3; have := sh_le m 0; omega⟩
theorem scat : ∀ v d a b m, Statement (.scat v d a b m) := fun v d a b m => fits rfl ⟨cluster_unit v, by decide, by have := sh_le d 15; have := sh_le a 9; have := sh_le b 3; have := sh_le m 0; omega⟩
theorem tcfg : ∀ d a, Statement (.tcfg d a) := fun d a => fits rfl ⟨by decide, by decide, by have := sh_le d 15; have := sh_le a 9; omega⟩
theorem tcfgRd : ∀ d a, Statement (.tcfgRd d a) := fun d a => fits rfl ⟨by decide, by decide, by have := sh_le d 15; have := sh_le a 9; omega⟩
theorem tzero : ∀ d, Statement (.tzero d) := fun d => fits rfl ⟨by decide, by decide, by have := sh_le d 15; omega⟩
theorem tld : ∀ d a b n, Statement (.tld d a b n) := fun d a b n => fits rfl ⟨by decide, by decide, by have := sh_le d 15; have := sh_le a 9; have := sh_le b 3; have := sh_le n 0; omega⟩
theorem tst : ∀ d a b n, Statement (.tst d a b n) := fun d a b n => fits rfl ⟨by decide, by decide, by have := sh_le d 15; have := sh_le a 9; have := sh_le b 3; have := sh_le n 0; omega⟩
theorem trwr : ∀ d a b, Statement (.trwr d a b) := fun d a b => fits rfl ⟨by decide, by decide, by have := sh_le d 15; have := sh_le a 9; have := sh_le b 3; omega⟩
theorem trrd : ∀ d a b, Statement (.trrd d a b) := fun d a b => fits rfl ⟨by decide, by decide, by have := sh_le d 15; have := sh_le a 9; have := sh_le b 3; omega⟩
theorem tcwr : ∀ d a b, Statement (.tcwr d a b) := fun d a b => fits rfl ⟨by decide, by decide, by have := sh_le d 15; have := sh_le a 9; have := sh_le b 3; omega⟩
theorem tcrd : ∀ d a b, Statement (.tcrd d a b) := fun d a b => fits rfl ⟨by decide, by decide, by have := sh_le d 15; have := sh_le a 9; have := sh_le b 3; omega⟩
theorem tmsk : ∀ d a, Statement (.tmsk d a) := fun d a => fits rfl ⟨by decide, by decide, by have := sh_le d 15; have := sh_le a 9; omega⟩
theorem tmskRd : ∀ d a, Statement (.tmskRd d a) := fun d a => fits rfl ⟨by decide, by decide, by have := sh_le d 15; have := sh_le a 9; omega⟩
theorem mma : ∀ d a b n, Statement (.mma d a b n) := fun d a b n => fits rfl ⟨by decide, by decide, by have := sh_le d 15; have := sh_le a 9; have := sh_le b 3; have := sh_le n 0; omega⟩
theorem mmac : ∀ d a b n, Statement (.mmac d a b n) := fun d a b n => fits rfl ⟨by decide, by decide, by have := sh_le d 15; have := sh_le a 9; have := sh_le b 3; have := sh_le n 0; omega⟩
theorem mmab : ∀ d a b n, Statement (.mmab d a b n) := fun d a b n => fits rfl ⟨by decide, by decide, by have := sh_le d 15; have := sh_le a 9; have := sh_le b 3; have := sh_le n 0; omega⟩
theorem aczF : ∀ d, Statement (.aczF d) := fun d => fits rfl ⟨by decide, by decide, by have := sh_le d 15; omega⟩
theorem aczI : ∀ d, Statement (.aczI d) := fun d => fits rfl ⟨by decide, by decide, by have := sh_le d 15; omega⟩
theorem acrd : ∀ d a b, Statement (.acrd d a b) := fun d a b => fits rfl ⟨by decide, by decide, by have := sh_le d 15; have := sh_le a 9; have := sh_le b 3; omega⟩
theorem acwr : ∀ d a b, Statement (.acwr d a b) := fun d a b => fits rfl ⟨by decide, by decide, by have := sh_le d 15; have := sh_le a 9; have := sh_le b 3; omega⟩
theorem accvt : ∀ d a n, Statement (.accvt d a n) := fun d a n => fits rfl ⟨by decide, by decide, by have := sh_le d 15; have := sh_le a 9; have := sh_le n 0; omega⟩
theorem rkdecl : ∀ d v k r, Statement (.rkdecl d v k r) := fun d v k r => fits rfl ⟨by decide, by decide, by have := sh_le d 15; have := sh_le v 7; have := sh_le k 3; have := sh_le r 0; omega⟩
theorem rkrel : ∀ d, Statement (.rkrel d) := fun d => fits rfl ⟨by decide, by decide, by have := sh_le d 15; omega⟩
theorem rkins : ∀ d a b m, Statement (.rkins d a b m) := fun d a b m => fits rfl ⟨by decide, by decide, by have := sh_le d 15; have := sh_le a 9; have := sh_le b 3; have := sh_le m 0; omega⟩
theorem rkacc : ∀ d a n, Statement (.rkacc d a n) := fun d a n => fits rfl ⟨by decide, by decide, by have := sh_le d 15; have := sh_le a 9; have := sh_le n 0; omega⟩
theorem rkmerge : ∀ d a, Statement (.rkmerge d a) := fun d a => fits rfl ⟨by decide, by decide, by have := sh_le d 15; have := sh_le a 9; omega⟩
theorem rkst : ∀ d a n, Statement (.rkst d a n) := fun d a n => fits rfl ⟨by decide, by decide, by have := sh_le d 15; have := sh_le a 9; have := sh_le n 0; omega⟩
theorem rkld : ∀ d a, Statement (.rkld d a) := fun d a => fits rfl ⟨by decide, by decide, by have := sh_le d 15; have := sh_le a 9; omega⟩
theorem rkth : ∀ d a, Statement (.rkth d a) := fun d a => fits rfl ⟨by decide, by decide, by have := sh_le d 15; have := sh_le a 9; omega⟩
theorem rklen : ∀ d a, Statement (.rklen d a) := fun d a => fits rfl ⟨by decide, by decide, by have := sh_le d 15; have := sh_le a 9; omega⟩
theorem cdim : ∀ e l a b, Statement (.cdim e l a b) := fun e l a b => fits rfl ⟨engine_unit e, by decide, by have := sh_le l 15; have := sh_le a 9; have := sh_le b 3; omega⟩
theorem cset : ∀ e t a b f, Statement (.cset e t a b f) := fun e t a b f => fits rfl ⟨engine_unit e, by decide, by have := sh_le t 15; have := sh_le a 9; have := sh_le b 3; have := sh_le f 0; omega⟩
theorem clab : ∀ e l, Statement (.clab e l) := fun e l => fits rfl ⟨engine_unit e, by decide, by have := sh_le l 0; omega⟩
theorem cpy : ∀ e r q h a s, Statement (.cpy e r q h a s) := fun e r q h a s => fits rfl ⟨engine_unit e, by decide, by have := sh_le r 18; have := sh_le q 17; have := sh_le h 15; have := sh_le a 9; have := sh_le s 0; omega⟩
theorem cwm : ∀ e h a b, Statement (.cwm e h a b) := fun e h a b => fits rfl ⟨engine_unit e, by decide, by have := sh_le h 15; have := sh_le a 9; have := sh_le b 3; omega⟩
theorem cwmOff : ∀ e h, Statement (.cwmOff e h) := fun e h => fits rfl ⟨engine_unit e, by decide, by have := sh_le h 15; omega⟩
theorem csync : ∀ e h a, Statement (.csync e h a) := fun e h a => fits rfl ⟨engine_unit e, by decide, by have := sh_le h 15; have := sh_le a 9; omega⟩
theorem csyncBs : ∀ e h a, Statement (.csyncBs e h a) := fun e h a => fits rfl ⟨engine_unit e, by decide, by have := sh_le h 15; have := sh_le a 9; omega⟩
theorem ccan : ∀ e h, Statement (.ccan e h) := fun e h => fits rfl ⟨engine_unit e, by decide, by have := sh_le h 15; omega⟩
theorem ccanAll : ∀ e h, Statement (.ccanAll e h) := fun e h => fits rfl ⟨engine_unit e, by decide, by have := sh_le h 15; omega⟩
theorem cqry : ∀ e d h i, Statement (.cqry e d h i) := fun e d h i => fits rfl ⟨engine_unit e, by decide, by have := sh_le d 15; have := sh_le h 3; have := sh_le i 0; omega⟩
theorem csend : ∀ e r h a b s, Statement (.csend e r h a b s) := fun e r h a b s => fits rfl ⟨engine_unit e, by decide, by have := sh_le r 17; have := sh_le h 15; have := sh_le a 9; have := sh_le b 3; have := sh_le s 0; omega⟩
theorem kportWrite : Statement .kportWrite := EncodedFields.none rfl
theorem taskAcceptance : Statement .taskAcceptance := EncodedFields.none rfl
theorem kioskSelect : Statement .kioskSelect := EncodedFields.none rfl
theorem preload : Statement .preload := EncodedFields.none rfl
theorem preloadRangeUnblock : Statement .preloadRangeUnblock := EncodedFields.none rfl
theorem entryAging : Statement .entryAging := EncodedFields.none rfl
theorem balanceSample : Statement .balanceSample := EncodedFields.none rfl
theorem balanceDecide : Statement .balanceDecide := EncodedFields.none rfl
theorem balanceArrival : Statement .balanceArrival := EncodedFields.none rfl
theorem swap : Statement .swap := EncodedFields.none rfl
theorem spill : Statement .spill := EncodedFields.none rfl
theorem budgetExhausted : Statement .budgetExhausted := EncodedFields.none rfl
theorem joinUpdate : Statement .joinUpdate := EncodedFields.none rfl
theorem failedJoinUpdate : Statement .failedJoinUpdate := EncodedFields.none rfl
theorem barrierRelease : Statement .barrierRelease := EncodedFields.none rfl
theorem barcfgWrite : Statement .barcfgWrite := EncodedFields.none rfl
theorem deferredTrap : Statement .deferredTrap := EncodedFields.none rfl
theorem contextEnd : Statement .contextEnd := EncodedFields.none rfl
theorem contextLost : Statement .contextLost := EncodedFields.none rfl
theorem kactAddBudget : Statement .kactAddBudget := EncodedFields.none rfl
theorem kactKill : Statement .kactKill := EncodedFields.none rfl
theorem kactRerun : Statement .kactRerun := EncodedFields.none rfl
theorem matrixComplete : Statement .matrixComplete := EncodedFields.none rfl
theorem railSettled : Statement .railSettled := EncodedFields.none rfl
theorem opSettled : Statement .opSettled := EncodedFields.none rfl
theorem stallBundle : Statement .stallBundle := EncodedFields.none rfl
theorem pwrctlWrite : Statement .pwrctlWrite := EncodedFields.none rfl
theorem boostLeaseRequest : Statement .boostLeaseRequest := EncodedFields.none rfl
theorem boostLeaseAnswer : Statement .boostLeaseAnswer := EncodedFields.none rfl
theorem boostLeaseEnd : Statement .boostLeaseEnd := EncodedFields.none rfl
theorem boostLeaseRevoke : Statement .boostLeaseRevoke := EncodedFields.none rfl
theorem sensorSample : Statement .sensorSample := EncodedFields.none rfl
theorem thermalThrottle : Statement .thermalThrottle := EncodedFields.none rfl
theorem migration : Statement .migration := EncodedFields.none rfl
theorem rackBudgetMessage : Statement .rackBudgetMessage := EncodedFields.none rfl
theorem rackBudgetHoldExpiry : Statement .rackBudgetHoldExpiry := EncodedFields.none rfl
theorem hostWrite : Statement .hostWrite := EncodedFields.none rfl
theorem hostRead : Statement .hostRead := EncodedFields.none rfl
theorem hostEntryPerform : Statement .hostEntryPerform := EncodedFields.none rfl
theorem ingressAgeExpiry : Statement .ingressAgeExpiry := EncodedFields.none rfl
theorem hostRequestAgeExpiry : Statement .hostRequestAgeExpiry := EncodedFields.none rfl
theorem hwcfgDrain : Statement .hwcfgDrain := EncodedFields.none rfl
theorem tdispRequest : Statement .tdispRequest := EncodedFields.none rfl
theorem spdmRequest : Statement .spdmRequest := EncodedFields.none rfl
theorem keySlotInstall : Statement .keySlotInstall := EncodedFields.none rfl
theorem fwhoGo : Statement .fwhoGo := EncodedFields.none rfl
theorem handoverTrialStart : Statement .handoverTrialStart := EncodedFields.none rfl
theorem heartbeat : Statement .heartbeat := EncodedFields.none rfl
theorem heartbeatIntervalEnd : Statement .heartbeatIntervalEnd := EncodedFields.none rfl
theorem handoverCommit : Statement .handoverCommit := EncodedFields.none rfl
theorem oldInstanceHeartbeatMiss : Statement .oldInstanceHeartbeatMiss := EncodedFields.none rfl
theorem coldReset : Statement .coldReset := EncodedFields.none rfl
theorem warmReset : Statement .warmReset := EncodedFields.none rfl
theorem fpermWrite : Statement .fpermWrite := EncodedFields.none rfl
theorem conntabWrite : Statement .conntabWrite := EncodedFields.none rfl
theorem errbaseWrite : Statement .errbaseWrite := EncodedFields.none rfl
theorem registerWrite : Statement .registerWrite := EncodedFields.none rfl
theorem linkKeyRotation : Statement .linkKeyRotation := EncodedFields.none rfl
theorem keySelectorSwitch : Statement .keySelectorSwitch := EncodedFields.none rfl
theorem keySlotRetire : Statement .keySlotRetire := EncodedFields.none rfl
theorem keyInstallTimeout : Statement .keyInstallTimeout := EncodedFields.none rfl
theorem keyUseLimit : Statement .keyUseLimit := EncodedFields.none rfl
theorem turnstileWindow : Statement .turnstileWindow := EncodedFields.none rfl
theorem copyCommandStart : Statement .copyCommandStart := EncodedFields.none rfl
theorem copyBurst : Statement .copyBurst := EncodedFields.none rfl
theorem burstPerform : Statement .burstPerform := EncodedFields.none rfl
theorem copyCommandComplete : Statement .copyCommandComplete := EncodedFields.none rfl
theorem lanternLaunch : Statement .lanternLaunch := EncodedFields.none rfl
theorem lanternHop : Statement .lanternHop := EncodedFields.none rfl
theorem lanternAck : Statement .lanternAck := EncodedFields.none rfl
theorem lanternTimeout : Statement .lanternTimeout := EncodedFields.none rfl
theorem circuitBeatArrival : Statement .circuitBeatArrival := EncodedFields.none rfl
theorem markArrival : Statement .markArrival := EncodedFields.none rfl
theorem releaseNotice : Statement .releaseNotice := EncodedFields.none rfl
theorem flowDemotion : Statement .flowDemotion := EncodedFields.none rfl
theorem teardownAck : Statement .teardownAck := EncodedFields.none rfl
theorem commitNotice : Statement .commitNotice := EncodedFields.none rfl
theorem streamStart : Statement .streamStart := EncodedFields.none rfl
theorem segmentCommit : Statement .segmentCommit := EncodedFields.none rfl
theorem circuitLeaseExpiry : Statement .circuitLeaseExpiry := EncodedFields.none rfl
theorem glasshouseElementFailure : Statement .glasshouseElementFailure := EncodedFields.none rfl
theorem accessPerform : Statement .accessPerform := EncodedFields.none rfl
theorem accessResponse : Statement .accessResponse := EncodedFields.none rfl
theorem ualinkResponse : Statement .ualinkResponse := EncodedFields.none rfl
theorem remoteRequest : Statement .remoteRequest := EncodedFields.none rfl
theorem remoteTimeout : Statement .remoteTimeout := EncodedFields.none rfl
theorem linkReplay : Statement .linkReplay := EncodedFields.none rfl
theorem stationOutOfService : Statement .stationOutOfService := EncodedFields.none rfl
theorem networkSegmentComplete : Statement .networkSegmentComplete := EncodedFields.none rfl
theorem networkRequestFailure : Statement .networkRequestFailure := EncodedFields.none rfl
theorem correctedError : Statement .correctedError := EncodedFields.none rfl
theorem rowTestComplete : Statement .rowTestComplete := EncodedFields.none rfl
theorem patrolScrub : Statement .patrolScrub := EncodedFields.none rfl
theorem interleaveInstall : Statement .interleaveInstall := EncodedFields.none rfl
theorem tableDrainComplete : Statement .tableDrainComplete := EncodedFields.none rfl
theorem unitMove : Statement .unitMove := EncodedFields.none rfl
theorem resultArrival : Statement .resultArrival := EncodedFields.none rfl
theorem illegalBundle : Statement .illegalBundle := EncodedFields.none rfl
theorem unassignedOpcode : Statement .unassignedOpcode := EncodedFields.none rfl

end Sys2Proof.Laws.EncodedFields
end

