-- ==== Sys2Proof/Laws/Store.lean ====
section
/-! SUPPORT. What a write of bytes at a local address does: the bytes it stores, the bytes it leaves, and memory's canonical form. -/

namespace Sys2Proof.Machine

/-! ### The agenda, registers and windows leave memory alone -/

@[simp] theorem atTime_mem (t : Nat) (h : Happening) (s : State) : (atTime t h s).mem = s.mem := rfl
@[simp] theorem inTicks_mem (d : Nat) (h : Happening) (s : State) : (inTicks d h s).mem = s.mem := rfl
@[simp] theorem soon_mem (h : Happening) (s : State) : (soon h s).mem = s.mem := rfl
@[simp] theorem within_mem (b : Nat) (h : Happening) (s : State) : (within b h s).mem = s.mem := rfl
@[simp] theorem sometime_mem (h : Happening) (s : State) : (sometime h s).mem = s.mem := rfl
@[simp] theorem setReg_mem (a v : Nat) (s : State) : (setReg a v s).mem = s.mem := rfl
@[simp] theorem setCore_mem (s : State) (n : Nat) (c : Core) : (setCore s n c).mem = s.mem := by unfold setCore; split <;> rfl
@[simp] theorem modCoreAt_mem (n : Nat) (f : Core → Core) (s : State) : (modCoreAt n f s).mem = s.mem := setCore_mem ..
@[simp] theorem plainRegWrite_mem (a v : Nat) (s : State) : (plainRegWrite a v s).mem = s.mem := by
  unfold plainRegWrite
  split <;> rfl

@[simp] theorem journal_mem (r : Option Nat) (h : Happening) (s : State) : (journal r h s).mem = s.mem := by
  unfold journal
  repeat' split
  all_goals rfl

@[simp] theorem roleRegWrite_mem (a v : Nat) (s : State) : (roleRegWrite a v s).mem = s.mem := by
  unfold roleRegWrite
  split <;> simp

@[simp] theorem regWrite_mem (a v : Nat) (s : State) : (regWrite a v s).mem = s.mem := by
  unfold regWrite
  dsimp only
  repeat' split
  all_goals simp

@[simp] theorem windowByteWrite_mem (a : Nat) (v : Byte) (s : State) : (windowByteWrite a v s).mem = s.mem := by
  unfold windowByteWrite
  dsimp only
  repeat' split
  all_goals simp

@[simp] theorem windowWrite_mem (a : Nat) (bs : List Byte) (s : State) : (windowWrite a bs s).mem = s.mem := by
  induction bs generalizing a s with
  | nil => rfl
  | cons b r ih => simp [windowWrite, ih]

/-- A fold of updates that leave memory alone leaves it alone. -/
theorem foldl_mem {α : Type} (f : State → α → State) (h : ∀ s x, (f s x).mem = s.mem) (l : List α) (s : State) :
    (l.foldl f s).mem = s.mem := by
  induction l generalizing s with
  | nil => rfl
  | cons x r ih => rw [List.foldl_cons, ih, h]

@[simp] theorem regSpan_mem (a : Nat) (bs : List Byte) (s : State) : (regSpan a bs s).mem = s.mem :=
  foldl_mem _ (fun _ _ => regWrite_mem ..) _ _

@[simp] theorem apertureWrite_mem (a : Nat) (bs : List Byte) (s : State) : (apertureWrite a bs s).mem = s.mem := by
  unfold apertureWrite
  repeat' split
  all_goals simp

/-! ### Writing -/

theorem writeKeyed_wf (k a : Nat) (bs : List Byte) {s : State} (h : s.memOk = true) : (writeKeyed k a bs s).memOk = true :=
  memWrite_wf a bs (rekeyAll_wf k (unitsOf a bs.length) h)

/-- Every write at a local address keeps memory's canonical form. -/
theorem writeLocal_memOk (k a : Nat) (bs : List Byte) {s : State} (h : s.memOk = true) : (writeLocal k a bs s).memOk = true := by
  unfold writeLocal
  dsimp only
  split
  · simpa [State.memOk] using h
  · exact memWrite_wf _ bs h
  · exact h
  · exact writeKeyed_wf k _ bs h

theorem byteAt_eq (s : State) (k a : Nat) : byteAt s k a =
    match regionOf (remapLocal s a) with
    | .aperture => apertureByte s (remapLocal s a)
    | .slice => memGet s.mem (remapLocal s a)
    | _ => readKeyed s k (remapLocal s a) := by
  unfold byteAt readLocal
  dsimp only
  generalize regionOf (remapLocal s a) = r
  cases r <;> simp [memRead]

/-- Regions begin and end with 64-byte units. -/
theorem regionOf_unit {x y : Nat} (h : x / 64 = y / 64) : regionOf x = regionOf y := by
  have hp : 0x1000000000 ≤ x → 0x1000000000 ≤ y → (x - 0x1000000000) / 0x400000 = (y - 0x1000000000) / 0x400000 := by omega
  unfold regionOf
  by_cases h1 : x < 0x100000000
  · have h1' : y < 0x100000000 := by omega
    rw [if_pos h1, if_pos h1']
  have h1' : ¬ y < 0x100000000 := by omega
  rw [if_neg h1, if_neg h1']
  by_cases h2 : 0x1000000000 ≤ x ∧ x < 0x1200000000
  · have h2' : 0x1000000000 ≤ y ∧ y < 0x1200000000 := by omega
    simp only [h2, h2', decide_true, Bool.and_self, if_true, hp h2.1 h2'.1]
  have h2' : ¬ (0x1000000000 ≤ y ∧ y < 0x1200000000) := by omega
  have e3 : (0x4000000000 ≤ x ∧ x < 0x5000000000) = (0x4000000000 ≤ y ∧ y < 0x5000000000) := by
    apply propext; omega
  have e4 : (0x10000000000 ≤ x ∧ x < 0x1C000000000) = (0x10000000000 ≤ y ∧ y < 0x1C000000000) := by
    apply propext; omega
  simp only [Bool.and_eq_true, decide_eq_true_eq, h2, h2', if_false, e3, e4]

/-- A byte reads the same in a state that differs in its record of uncorrectable units alone. -/
theorem byteAt_health (s : State) (hl : Health) (k a : Nat) : byteAt { s with health := hl } k a = byteAt s k a := by
  rw [byteAt_eq, byteAt_eq]
  rfl

theorem writeLocal_nil (s : State) (k a : Nat) : ∃ hl, writeLocal k a [] s = { s with health := hl } := by
  unfold writeLocal
  dsimp only
  split
  · exact ⟨s.health, rfl⟩
  · exact ⟨_, rfl⟩
  · exact ⟨s.health, rfl⟩
  · exact ⟨_, rfl⟩

/-- R5, R92, R100, R303: what a write of a piece in memory does. -/
theorem writeLocal_storedAt {s : State} {p : Piece} {bs : List Byte} (h : s.memOk = true) (hp : p.inMemory s) (hl : bs.length = p.len) :
    StoredAt p bs s (writeLocal p.key (localOf p.pa) bs s) := by
  rcases Nat.eq_zero_or_pos bs.length with h0 | h0
  · have hb : bs = [] := List.eq_nil_of_length_eq_zero h0
    subst hb
    refine ⟨fun i hi => absurd hi (by simp), fun k a _ _ => ?_⟩
    obtain ⟨hl, he⟩ := writeLocal_nil s p.key (localOf p.pa)
    rw [he, byteAt_health]
  have hreg := (hp 0 (by omega)).2.2
  have hrA : ∀ i < bs.length, remapLocal s (localOf p.pa + i) = remapLocal s (localOf p.pa) + i ∧
      regionOf (remapLocal s (localOf p.pa) + i) = regionOf (remapLocal s (localOf p.pa)) := fun i hi =>
    ⟨(hp i (by omega)).1, (hp i (by omega)).2.1⟩
  unfold StoredAt writeLocal
  dsimp only
  generalize remapLocal s (localOf p.pa) = A at *
  -- a byte of another region lies in another unit
  have hother : ∀ x, regionOf x ≠ regionOf A → ∀ i < bs.length, x / 64 ≠ (A + i) / 64 := fun x hx i hi he =>
    hx ((regionOf_unit he).trans (hrA i hi).2)
  have hsame : ∀ x, regionOf x ≠ regionOf A → ¬ (A ≤ x ∧ x < A + bs.length) := fun x hx hc =>
    hother x hx (x - A) (by omega) (by congr 1; omega)
  rcases hreg with hr | hr
  · rw [hr]
    dsimp only
    have hbyte : ∀ k x, byteAt { s with mem := memWrite s.mem A bs } k x =
        match regionOf (remapLocal s x) with
        | .aperture => apertureByte s (remapLocal s x)
        | .slice => if A ≤ remapLocal s x ∧ remapLocal s x < A + bs.length then bs.getD (remapLocal s x - A) 0
            else memGet s.mem (remapLocal s x)
        | _ => readKeyed s k (remapLocal s x) := by
      intro k x
      rw [byteAt_eq]
      have hrm : remapLocal { s with mem := memWrite s.mem A bs } x = remapLocal s x := rfl
      rw [hrm]
      have hkeyed : regionOf (remapLocal s x) ≠ .slice → readKeyed { s with mem := memWrite s.mem A bs } k (remapLocal s x) =
          readKeyed s k (remapLocal s x) := by
        intro hx
        have hx : regionOf (remapLocal s x) ≠ regionOf A := by rw [hr]; exact hx
        have hg : ∀ y, y / 64 = remapLocal s x / 64 → memGet (memWrite s.mem A bs) y = memGet s.mem y := fun y hy => by
          rw [memGet_memWrite _ _ _ h, if_neg (hsame y (by rw [regionOf_unit hy]; exact hx))]
        have hb : unitBytes { s with mem := memWrite s.mem A bs } (remapLocal s x / 64) = unitBytes s (remapLocal s x / 64) := by
          simp only [unitBytes, memRead_eq]
          apply List.map_congr_left
          intro i hi
          have := List.mem_range.mp hi
          exact hg _ (by omega)
        unfold readKeyed
        rw [hg _ rfl, hb]
        rfl
      cases hx : regionOf (remapLocal s x) with
      | aperture => rfl
      | slice => exact memGet_memWrite A _ bs h
      | dram => exact hkeyed (by rw [hx]; decide)
      | lpddr => exact hkeyed (by rw [hx]; decide)
      | hole => exact hkeyed (by rw [hx]; decide)
    refine ⟨fun i hi => ?_, fun k a _ hne => ?_⟩
    · rw [byteAt_health { s with mem := memWrite s.mem A bs }, hbyte, (hrA i hi).1, (hrA i hi).2, hr]
      dsimp only
      rw [if_pos (by omega)]
      congr 1
      omega
    · rw [byteAt_health { s with mem := memWrite s.mem A bs }, hbyte, byteAt_eq]
      cases hx : regionOf (remapLocal s a) with
      | slice =>
        dsimp only
        rw [if_neg (fun hc => hne (remapLocal s a - A) (by omega) (by omega))]
      | aperture | dram | lpddr | hole => rfl
  · have hbyte : ∀ k x, (k = p.key ∨ ∀ i < bs.length, remapLocal s x / 64 ≠ (A + i) / 64) →
        byteAt (writeKeyed p.key A bs s) k x =
        match regionOf (remapLocal s x) with
        | .aperture => apertureByte s (remapLocal s x)
        | .slice => memGet s.mem (remapLocal s x)
        | _ => if A ≤ remapLocal s x ∧ remapLocal s x < A + bs.length then bs.getD (remapLocal s x - A) 0
            else readKeyed s k (remapLocal s x) := by
      intro k x hk
      obtain ⟨m, l, he⟩ := rekeyAll_eq p.key (unitsOf A bs.length) s
      have hrm : remapLocal (writeKeyed p.key A bs s) x = remapLocal s x := by
        show remapLocal { rekeyAll p.key (unitsOf A bs.length) s with mem := _, health := _ } x = _
        rw [he]
        rfl
      rw [byteAt_eq, hrm]
      cases hx : regionOf (remapLocal s x) with
      | aperture =>
        show apertureByte { rekeyAll p.key (unitsOf A bs.length) s with mem := _, health := _ } _ = _
        rw [he]
        rfl
      | slice =>
        have hx' : regionOf (remapLocal s x) ≠ regionOf A := by rw [hx]; rcases hr with hr | hr <;> rw [hr] <;> decide
        show memGet (memWrite (rekeyAll p.key (unitsOf A bs.length) s).mem A bs) (remapLocal s x) = _
        rw [memGet_memWrite _ _ _ (rekeyAll_wf _ _ h), if_neg (hsame _ hx'), memGet_rekeyAll _ _ _ h]
        intro hu
        obtain ⟨y, h1, h2, h3⟩ := of_mem_unitsOf hu
        exact hother _ hx' (y - A) (by omega) (by rw [← h3]; congr 1; omega)
      | dram | lpddr | hole => exact readKeyed_writeKeyed _ _ _ _ _ h hk
    suffices main : (∀ i < bs.length, byteAt (writeKeyed p.key A bs s) p.key (localOf p.pa + i) = bs.getD i 0) ∧
        ∀ k a, (k = p.key ∨ regionOf A = .slice ∨ ∀ i < bs.length, remapLocal s a / 64 ≠ (A + i) / 64) →
          (∀ i < bs.length, remapLocal s a ≠ A + i) → byteAt (writeKeyed p.key A bs s) k a = byteAt s k a by
      rcases hr with hr | hr <;> rw [hr] at main ⊢ <;> exact main
    refine ⟨fun i hi => ?_, fun k a hk hne => ?_⟩
    · rw [hbyte _ _ (Or.inl rfl), (hrA i hi).1, (hrA i hi).2]
      have hin : A ≤ A + i ∧ A + i < A + bs.length := by omega
      have hd : A + i - A = i := by omega
      rcases hr with hr | hr <;> rw [hr] <;> dsimp only <;> rw [if_pos hin, hd]
    · have hk' : k = p.key ∨ ∀ i < bs.length, remapLocal s a / 64 ≠ (A + i) / 64 := by
        rcases hk with hk | hk | hk
        · exact Or.inl hk
        · rcases hr with hr | hr <;> rw [hr] at hk <;> cases hk
        · exact Or.inr hk
      rw [hbyte _ _ hk', byteAt_eq]
      have hout : ¬ (A ≤ remapLocal s a ∧ remapLocal s a < A + bs.length) := fun hc =>
        hne (remapLocal s a - A) (by omega) (by omega)
      cases hx : regionOf (remapLocal s a) with
      | aperture | slice => rfl
      | dram | lpddr | hole =>
        dsimp only
        rw [if_neg hout]

end Sys2Proof.Machine
end

