-- ==== Sys2Proof/Laws/Reach.lean ====
section
/-! SUPPORT. What reaching memory does: the home window's translation, accesses that nothing holds back, and accesses that perform at
once. -/

namespace Sys2Proof.Machine

/-- R93, R371: an aligned access within the home window translates. -/
theorem xlate_home {va n al : Nat} (k : AccessKind) (s : State) (h : va + max n 1 ≤ 0x400000) (ha : n = 0 ∨ va % al = 0) :
    xlate va n k al s = .ok (homeSpan s va n) := by
  have e1 : va % 2 ^ 57 = va := by omega
  have e2 : va / 2 ^ 57 = 0 := by omega
  unfold xlate Machine.translate
  simp only [e1, e2, h, if_true]
  have e3 : (n != 0 && va % al != 0) = false := by rcases ha with h | h <;> simp [h]
  simp [e3, lowest, homeSpan]

/-- R93, R371: bits above 56 of a home-window address trap before its misalignment. -/
theorem xlate_high {va n al : Nat} (k : AccessKind) (s : State) (h : va % 2 ^ 57 + max n 1 ≤ 0x400000) (ht : 2 ^ 57 ≤ va) :
    xlate va n k al s = .fail 0x60 (BitVec.ofNat 64 va) := by
  have e2 : (va / 2 ^ 57 != 0) = true := by simp; omega
  unfold xlate Machine.translate
  simp only [h, e2, if_true]
  cases (n != 0 && va % 2 ^ 57 % al != 0) <;> simp [lowest]

/-- R371: a misaligned home-window address. -/
theorem xlate_misaligned {va n al : Nat} (k : AccessKind) (s : State) (h : va + max n 1 ≤ 0x400000) (hn : n ≠ 0) (ha : va % al ≠ 0) :
    xlate va n k al s = .fail 0x67 (BitVec.ofNat 64 va) := by
  have e1 : va % 2 ^ 57 = va := by omega
  have e2 : va / 2 ^ 57 = 0 := by omega
  have e3 : (n != 0 && va % al != 0) = true := by simp [hn, ha]
  unfold xlate Machine.translate
  simp only [e1, e2, h, if_true]
  simp [e3, lowest]

/-- R101: an access to the home window keeps no leaf. -/
theorem touch_home {va : Nat} (s : State) (h : va < 0x400000) : touch va s = s := by
  unfold touch keepLeaf
  rw [if_pos (by omega)]

theorem isHome_eq {va n : Nat} (h : va + max n 1 ≤ 0x400000) : isHome va n = true := by
  unfold isHome
  simp only [decide_eq_true_eq]
  omega

theorem isHome_false {va n : Nat} (h : 0x400000 < va % 2 ^ 57 + n) : isHome va n = false := by
  unfold isHome
  simp only [decide_eq_false_iff_not]
  omega

/-- An access that nothing stops is made. -/
theorem reach_of_reachable {ps : List Piece} {va : Nat} {op : AccessOp} {s : State} (k : State → Out) (h : Reachable ps va op s) :
    reach ps va op s k = k (touch va s) := by
  obtain ⟨h1, h2, h3, h4⟩ := h
  simp [reach, h1, h2, h3, h4]

/-- R373: an access that translates and that nothing stops is made. -/
theorem oneAccess_of_reachable {va n al : Nat} {kind : AccessKind} {op : AccessOp} {s : State} {p : Piece} (k : Piece → State → Out)
    (ht : xlate va n kind al s = .ok p) (h : Reachable [p] va op s) : oneAccess va n kind al op s k = k p (touch va s) := by
  unfold oneAccess
  rw [ht]
  exact reach_of_reachable _ h

/-- R26: the home window of a core of the module lies in this package. -/
theorem pkgOf_home {va n : Nat} (s : State) (hl : s.lcn < Config.numCores) (h : va < 0x400000) : pkgOf (homeSpan s va n).pa = pkgId s := by
  have hp : pkgId s < 1024 := by unfold pkgId fld; omega
  have hb : sliceBase (cidOf s.lcn) < 2 ^ 45 := by
    have : s.lcn < 1152 := hl
    unfold sliceBase cidOf; omega
  simp only [pkgOf, homeSpan]
  omega

/-- R379: what stops no access in this package meets no uncorrectable data. -/
theorem sound_of_memStop {p : Piece} {va : Nat} {op : AccessOp} {s : State} (h : memStop s op [p] va = none) (hp : pkgOf p.pa = pkgId s) :
    (if op.reads = true then spanBad s (localOf p.pa) p.len else partialBad s (localOf p.pa) p.len) = false := by
  unfold memStop at h
  split at h
  · exact absurd h (by simp)
  · rename_i h2
    simp only [meetsLost, hp, List.any_cons, List.any_nil, Bool.or_false, beq_self_eq_true, Bool.true_and, Bool.not_eq_true] at h2
    exact h2

/-- R107: whether an access may perform does not depend on where its answer goes. -/
theorem mayPerform_ret (s t : State) (hs : List Hold) (cls : Nat) (acq rel : Bool) (va : Nat) (ps : List Piece) (op : AccessOp)
    (r r' : AccessReturn) (n n' : Nat) :
    mayPerform s hs (mkAccess t cls acq rel va ps op r n) = mayPerform s hs (mkAccess t cls acq rel va ps op r' n') := rfl

/-- R93, R107: an access to the home window that may perform does so at once. -/
theorem homeAccess_now {a : Access} {s : State} (h : mayPerform s s.core.act.holds a = true) :
    homeAccess a s = (some (performOp a.op a.pieces a.va s).1, (performOp a.op a.pieces a.va s).2) := by
  unfold homeAccess
  rw [if_pos h]

/-- R379: what performs on one piece without uncorrectable data. -/
theorem performOp_load {p : Piece} {va : Nat} {s : State} (h : spanBad s (localOf p.pa) p.len = false) :
    performOp .load [p] va s = (⟨readLocal s p.key (localOf p.pa) p.len, 0, none⟩, s) := by
  simp [performOp, AccessOp.reads, h, readPieces]

theorem performOp_store {p : Piece} {va : Nat} {bs : List Byte} {s : State} (h : partialBad s (localOf p.pa) p.len = false)
    (hl : bs.length = p.len) : performOp (.store bs) [p] va s = (⟨[], 0, none⟩, writeLocal p.key (localOf p.pa) bs s) := by
  rw [← hl] at h
  simp [performOp, AccessOp.reads, h, writePieces, ← hl]

end Sys2Proof.Machine
end

