-- ==== Sys2Proof/Laws/Vector.lean ====
section
/-! SUPPORT. Elements of vector registers: packing and reading them, the flags of the enabled ones, and masks of lanes. -/

namespace Sys2Proof.Machine

theorem laneOn_eq (m : BitVec 64) (l : Nat) : laneOn m l = m.getLsbD l := by
  unfold laneOn; exact bit_toNat m l

/-- The elements of a packed lane. -/
theorem fld_packLane (w : Nat) (l : List Nat) (j : Nat) : fld (packLane w l) (w * j) w = l.getD j 0 % 2 ^ w := by
  induction l generalizing j with
  | nil => simp [packLane, fld]
  | cons x r ih =>
    cases j with
    | zero =>
      simp only [packLane, fld, Nat.mul_zero, pow_zero, Nat.div_one, Nat.add_mul_mod_self_left, Nat.mod_mod]
      rfl
    | succ j =>
      have h := ih j
      simp only [packLane, fld, List.getD_cons_succ] at h ⊢
      rw [Nat.mul_succ, Nat.add_comm (w * j) w, Nat.pow_add, ← Nat.div_div_eq_div_mul, Nat.add_mul_div_left _ _ (by positivity),
        Nat.div_eq_of_lt (Nat.mod_lt _ (by positivity)), Nat.zero_add]
      exact h

theorem packLane_lt (w : Nat) (l : List Nat) : packLane w l < 2 ^ (w * l.length) := by
  induction l with
  | nil => simp [packLane]
  | cons x r ih =>
    simp only [packLane, List.length_cons, Nat.mul_succ]
    rw [Nat.add_comm (w * r.length) w, Nat.pow_add]
    have h1 : x % 2 ^ w < 2 ^ w := Nat.mod_lt _ (by positivity)
    calc x % 2 ^ w + 2 ^ w * packLane w r < 2 ^ w + 2 ^ w * packLane w r := by omega
      _ = 2 ^ w * (packLane w r + 1) := by ring
      _ ≤ 2 ^ w * 2 ^ (w * r.length) := Nat.mul_le_mul_left _ ih

/-- R194: an element of a register whose lanes have been packed. -/
theorem el_packed (k : Nat) (hk : k = 1 ∨ k = 2 ∨ k = 4) (ls : Nat → List Nat) (tag e : Nat) (he : e < 64 * k)
    (hl : (ls (e / k)).length = k) :
    (VReg.mk ((List.range 64).map (fun l => BitVec.ofNat 32 (packLane (elemBits k) (ls l)))) tag).el k e =
      (ls (e / k)).getD (e % k) 0 % 2 ^ (32 / k) := by
  have hd : e / k < 64 := by rw [Nat.div_lt_iff_lt_mul (by omega)]; exact he
  have hb : elemBits k = 32 / k := rfl
  have hw : 32 / k * k = 32 := by rcases hk with h | h | h <;> subst h <;> rfl
  unfold VReg.el
  simp only [List.getD_eq_getElem?_getD, List.getElem?_map, List.getElem?_range hd, Option.map_some, Option.getD_some, BitVec.toNat_ofNat]
  have hlt := packLane_lt (32 / k) (ls (e / k))
  rw [hl, hw] at hlt
  rw [hb, Nat.mod_eq_of_lt hlt]
  simpa using fld_packLane (32 / k) (ls (e / k)) (e % k)

/-- R194: an enabled element of an element-by-element result. -/
theorem el_elementwise (k : Nat) (hk : k = 1 ∨ k = 2 ∨ k = 4) (m : BitVec 64) (f : Nat → Nat × Nat) (tag e : Nat) (he : e < 64 * k)
    (hm : m.getLsbD (e / k) = true) : (VReg.mk (elementwise k m f).1 tag).el k e = (f e).1 % 2 ^ (32 / k) := by
  have h := el_packed k hk (fun l => (if laneOn m l then (List.range k).map (fun j => f (l * k + j)) else []).map Prod.fst) tag e he
    (by simp [laneOn_eq, hm])
  have he2 : e / k * k + e % k = e := by rw [Nat.mul_comm]; exact Nat.div_add_mod e k
  have hmod : e % k < k := Nat.mod_lt _ (by omega)
  simp only [elementwise, List.map_map]
  simp only [laneOn_eq, hm, if_true, Function.comp_def, List.map_map, List.getD_eq_getElem?_getD, List.getElem?_map,
    List.getElem?_range hmod, Option.map_some, Option.getD_some, he2] at h ⊢
  exact h

theorem perLane_cases (t : Nat) : perLane t = 1 ∨ perLane t = 2 ∨ perLane t = 4 := by
  unfold perLane; split <;> simp

/-- A lane of a result given lane by lane. -/
theorem lane_lanewise (f : Nat → W32) (tag l : Nat) (hl : l < 64) : (VReg.mk (lanewise f) tag).lane l = f l := by
  simp [VReg.lane, lanewise, hl]

theorem el_one (r : VReg) (l : Nat) : r.el 1 l = (r.lane l).toNat := by
  have h := (r.lane l).isLt
  simp only [VReg.el, VReg.lane, elemBits, fld, Nat.div_one, Nat.mod_one, Nat.mul_zero, pow_zero] at h ⊢
  exact Nat.mod_eq_of_lt h

end Sys2Proof.Machine
end

