-- ==== Sys2Proof/Tests/Slice0.lean ====
section
/-! SUPPORT. Tests: words from the manual's worked examples and encoding tables, terms that well-formedness refuses, and for every
statement of Sys2Proof/Certificates/Slice0/Obligations.lean states and operands that meet its hypotheses together. -/

namespace Sys2Proof.Tests

open Machine Claims

set_option Elab.async false

/-! ### Helpers -/

/-- The reset state with a changed context. -/
def ctx (f : Context → Context) : State := modAct f State.reset
/-- The reset state with a changed current core. -/
def cor (f : Core → Core) : State := modCore f State.reset
/-- A state in which a happening is performed. -/
def doing (h : Happening) (s : State) : State := { s with happening := h }
/-- The reset state. -/
def zero : State := State.reset
/-- Task privilege. -/
def asTask (c : Context) : Context := c.putStw 2 1 0
/-- Scalar registers s1 to s3. -/
def regs (a b c : W64) (x : Context) : Context := { x with sreg := [0, a, b, c] ++ List.replicate 12 0 }
/-- Vector registers va1 and va2 with a tag. -/
def tagged (t u : Nat) (x : Context) : Context :=
  { x with va := [VReg.zero, ⟨List.replicate 64 0x3F800000, t⟩, ⟨List.replicate 64 0x3F800000, u⟩] ++ List.replicate 13 VReg.zero }

theorem clear_iff {i : Instr} {s : State} : Clear i s ↔ ((slotFault i s).isNone && ready i s && !valueBad i s) = true := by
  simp [Clear, Bool.and_eq_true, and_assoc]

/-! ### Decoding: words written out from the manual's encodings -/

/-- Whether a word decodes to an operation with G = 0. -/
def reads (w : W32) (i : Instr) : Bool := decide (decodeSlot w = .ok ⟨false, i⟩)

/-- R177: REPV 3, 2. -/
theorem test_decode_repv : reads 0x08E10019 (.repvImm 2 3) = true := by decide
/-- R211: VQNT.B4 va5, va1, 0. -/
theorem test_decode_vqnt : reads 0x15228208 (.vqnt .va 5 1 0 1) = true := by decide
/-- R227: TCFG tc2, s4. -/
theorem test_decode_tcfg : reads 0x300B0800 (.tcfg 22 4) = true := by decide
/-- R238: RKDECL.MIN a0, 4. -/
theorem test_decode_rkdecl : reads 0x33040019 (.rkdecl 8 0 3 1) = true := by decide
/-- R153, R155, R157, R158, R159, R161: unit 0, OPC, D at 15, A at 9, B at 3, M at 0. -/
theorem test_decode_scalar : reads (1 * 2 ^ 21 + 3 * 2 ^ 15 + 0x7FFF) (.li 3 0x7FFF) ∧ reads (0x0A * 2 ^ 21 + 3 * 2 ^ 15 + 1 * 2 ^ 9 + 2 * 2 ^ 3) (.divs 3 1 2) ∧
    reads (0x28 * 2 ^ 21 + (2 * 8 + 5) * 2 ^ 15 + 1 * 2 ^ 9 + 2 * 2 ^ 3) (.cmp 2 5 1 2) ∧
    reads (0x2A * 2 ^ 21 + 3 * 2 ^ 15 + 1 * 2 ^ 9 + 2 * 2 ^ 3 + 7) (.plog 3 1 2 7) ∧
    reads (0x2B * 2 ^ 21 + 3 * 2 ^ 15 + 1 * 2 ^ 9 + 2 * 2 ^ 3 + 4) (.agen 3 1 2 4) ∧
    reads (0x30 * 2 ^ 21 + 3 * 2 ^ 15 + 1 * 2 ^ 9 + 2 * 2 ^ 3) (.fadds 3 1 2) := by decide
/-- R169, R171, R172, R178, R181, R189: control, task and spill-stack operations. -/
theorem test_decode_control : reads (0x3B * 2 ^ 21 + 1 * 2 ^ 9 + 4 * 2 ^ 3 + 1) (.pushm 1 4 1) ∧ reads (0x41 * 2 ^ 21 + 5 * 2 ^ 15 + 0x7FFF) (.call 5 0x7FFF) ∧
    reads (0x45 * 2 ^ 21 + 3 * 2 ^ 15 + 7 * 2 ^ 3 + 1) (.loopImm 3 7) ∧ reads (0x48 * 2 ^ 21 + 9) (.layer 9) ∧
    reads (0x4C * 2 ^ 21 + 2 * 2 ^ 15 + 3 * 2 ^ 9) (.tjoin 2 3) ∧ reads (0x54 * 2 ^ 21 + 0x1FF) (.trap 0x1FF) := by decide
/-- R244, R246, R248, R251, R262, R266: memory, atomics, fences, barrier slots, circuits and the network. -/
theorem test_decode_memory : reads (0x5C * 2 ^ 21 + 3 * 2 ^ 15 + 2 * 2 ^ 9 + 0x0FF) (.ldwS 3 2 0 0xFF) ∧ reads (0x63 * 2 ^ 21 + 3 * 2 ^ 15 + 2 * 2 ^ 9 + 0x1A1) (.std 3 2 1 0xA1) ∧
    reads (0x68 * 2 ^ 21 + 3 * 2 ^ 15 + 2 * 2 ^ 9 + 1 * 2 ^ 3 + 3 * 2 + 1) (.amoAdd 3 2 1 3 1) ∧
    reads (0x65 * 2 ^ 21 + 4 * 2 ^ 16 + 0x8001) (.fence 4 0x8001) ∧ reads (0x73 * 2 ^ 21 + 3 * 2 ^ 15 + 2 * 2 ^ 9 + 1 * 2 ^ 3) (.bara 3 2 1) ∧
    reads (0x78 * 2 ^ 21 + 3 * 2 ^ 15 + 2 * 2 ^ 9 + 1 * 2 ^ 3) (.copen 3 2 1) ∧ reads (0x7C * 2 ^ 21 + 3 * 2 ^ 15 + 2 * 2 ^ 9) (.npost 3 2) := by decide
/-- R200, R204, R207, R212, R214, R215, R217: units 1 and 2. -/
theorem test_decode_vector : reads (2 ^ 28 + 3 * 2 ^ 21 + 3 * 2 ^ 15 + 2 * 2 ^ 9 + 1 * 2 ^ 3 + 5) (.vfma .va 3 2 1 5) ∧
    reads (2 * 2 ^ 28 + 0x20 * 2 ^ 21 + (4 * 8 + 3) * 2 ^ 15 + 2 * 2 ^ 9 + 1 * 2 ^ 3) (.vcmp .vb 4 3 2 1 0) ∧
    reads (2 ^ 28 + 0x30 * 2 ^ 21 + 3 * 2 ^ 15 + 2 * 2 ^ 9 + 4 * 2 ^ 3 + 1) (.vreds .va 3 2 4 1) ∧
    reads (2 * 2 ^ 28 + 0x32 * 2 ^ 21 + 3 * 2 ^ 15 + 2 * 2 ^ 9 + 4 * 2 ^ 3 + 1) (.vperm .vb 3 2 4 1) ∧
    reads (2 ^ 28 + 0x39 * 2 ^ 21 + 3 * 2 ^ 15 + 2 * 2 ^ 9 + 1) (.mpop .va 3 2 1) ∧
    reads (2 * 2 ^ 28 + 0x43 * 2 ^ 21 + 3 * 2 ^ 15 + 2 * 2 ^ 9 + 4 * 2 ^ 3 + 1) (.gath .vb 3 2 4 1) := by decide
/-- R228, R230, R231, R235, R240: unit 3. -/
theorem test_decode_matrix : reads (3 * 2 ^ 28 + 2 * 2 ^ 21 + 3 * 2 ^ 15 + 2 * 2 ^ 9 + 1 * 2 ^ 3 + 3) (.tld 3 2 1 3) ∧
    reads (3 * 2 ^ 28 + 4 * 2 ^ 21 + 3 * 2 ^ 15 + 2 * 2 ^ 9 + 1 * 2 ^ 3) (.trwr 3 2 1) ∧
    reads (3 * 2 ^ 28 + 0x10 * 2 ^ 21 + 8 * 2 ^ 15 + 2 * 2 ^ 9 + 1 * 2 ^ 3 + 3) (.mma 8 2 1 3) ∧
    reads (3 * 2 ^ 28 + 0x14 * 2 ^ 21 + 8 * 2 ^ 15 + 1) (.aczI 8) ∧ reads (3 * 2 ^ 28 + 0x1D * 2 ^ 21 + 8 * 2 ^ 15 + 2 * 2 ^ 9 + 3) (.rkst 8 2 3) := by decide
/-- R254, R257, R263: units 4 and 5. -/
theorem test_decode_copy : reads (4 * 2 ^ 28 + 0 * 2 ^ 21 + 4 * 2 ^ 15 + 2 * 2 ^ 9 + 1 * 2 ^ 3) (.cdim .c0 4 2 1) ∧
    reads (5 * 2 ^ 28 + 3 * 2 ^ 21 + (2 ^ 3 + 2) * 2 ^ 15 + 2 * 2 ^ 9 + 4) (.cpy .c1 1 0 2 2 4) ∧
    reads (5 * 2 ^ 28 + 8 * 2 ^ 21 + (2 ^ 2 + 2) * 2 ^ 15 + 2 * 2 ^ 9 + 1 * 2 ^ 3 + 4) (.csend .c1 1 2 2 1 4) := by decide
/-- R139, R345, R346: a UNIT, an OPC and a field value that no row has. -/
theorem test_decode_refuses : decodeSlot 0x60000000 = .error .unit ∧ decodeSlot (0x17 * 2 ^ 21) = .error .unassigned ∧
    decodeSlot (3 * 2 ^ 21 + 1) = .error .reserved := by decide

/-! ### Well-formedness refuses -/

/-- A happening has no encoding. -/
theorem test_wf_refuses_happening : Instr.wellFormed SlotCtx.idle .balanceSample = false := by decide
/-- R257, R353: scope code 6 of a CPY with a flag. -/
theorem test_wf_refuses_scope : Instr.fieldsOk (.cpy .c0 1 0 0 0 6) = false := by decide
/-- R133: 17 is no scalar destination. -/
theorem test_wf_refuses_specifier : Instr.specsOk SlotCtx.idle (.add 17 1 2) = false := by decide
/-- R128: XB nonzero in a form that has no use for it. -/
theorem test_wf_refuses_xb : Instr.xbOk { SlotCtx.idle with hdr := true, xb := 1 } (.add 3 1 2) = false := by decide
/-- R164: control register 0x0E is not listed. -/
theorem test_wf_refuses_number : Instr.numberOk SlotCtx.idle (.csrr 1 0x0E) = false := by decide

/-! ### Witnesses: states and operands that meet the hypotheses of each clause -/

/-- ScalarResultsAndPredicatesAreWritten: a Trellis destination, a divisor of zero, a discarded result, and the predicate operations. -/
theorem test_witness_scalar : let s := ctx (regs 5 0 7)
    (moveResult s (.li 16 0x7FFF)).isSome ∧ Clear (.li 16 0x7FFF) s ∧ (integerResult s (.add 15 1 3)).isSome ∧ Clear (.add 15 1 3) s ∧
    (divisionResult s (.rems 32 1 2)).isSome ∧ Clear (.rems 32 1 2) s ∧ (selectResult s (.bxt 0 1 3 1)).isSome ∧ Clear (.bxt 0 1 3 1) s ∧
    Clear (.cmp 7 7 1 2) s ∧ Clear (.cmpi 0 0 1 0x1FF) s ∧ Clear (.plog 7 0 1 7) s := by
  simp only [clear_iff]; decide +kernel
/-- ScalarFloatResultsAndFlags: 1 + NaN with nothing enabled, an exact product with every flag enabled, FCMPS of a NaN. -/
theorem test_witness_float : let s := ctx (regs 0x3F800000 0x7FC00000 0x40000000)
    let t := ctx (fun c => (regs 0x3F800000 0x7FC00000 0x40000000 c).putStw 40 5 31)
    (floatResult s (.fadds 3 1 2)).isSome ∧ Clear (.fadds 3 1 2) s ∧ (∀ f < 5, bit s.core.act.fen f = true → False) ∧
    floatResult t (.fmuls 3 1 3) = some (3, 0x40000000, 0, 4) ∧ Clear (.fmuls 3 1 3) t ∧ bit t.core.act.fen 4 = true ∧
    Clear (.fcmps 7 6 1 2) t ∧ floatConditionFlags 6 (fpOf (readS 1 t)) (fpOf (readS 2 t)) = 0 := by
  simp only [clear_iff]; decide +kernel
/-- FlagsTrapWhenEnabledAndStayWhenRaised: an enabled NV of infinity minus infinity, an enabled NX beside an OF that is not. -/
theorem test_witness_flags : let s := ctx (fun c => (regs 0x7F800000 0xFF800000 0 c).putStw 40 5 1)
    let t := ctx (fun c => (regs 0x7F7FFFFF 0x7F7FFFFF 0 c).putStw 40 5 16)
    (floatResult s (.fadds 3 1 2)).any (fun r => bit r.2.2.1 0) ∧ Clear (.fadds 3 1 2) s ∧ bit s.core.act.fen 0 = true ∧
    (floatResult t (.fmuls 3 1 2)).any (fun r => bit r.2.2.1 4 && bit r.2.2.1 2) ∧ Clear (.fmuls 3 1 2) t ∧ bit t.core.act.fen 4 = true ∧
    (∀ g < 4, bit t.core.act.fen g = false) := by
  simp only [clear_iff]; decide +kernel
/-- ControlRegistersAndCountersAreReadAndWritten: STW read with and without a completion under way, TVAL and a counter. -/
theorem test_witness_control_registers : let s := zero
    let t := ctx (fun c => { c with completions := [⟨0, some 9, 1, 0, 0, 3, 0, 0, 0, [], none⟩] })
    Clear (.csrr 3 4) s ∧ Clear (.csrr 3 0) s ∧ s.core.act.completions = [] ∧ Clear (.csrr 3 0) t ∧ t.core.act.completions ≠ [] ∧
    Clear (.csrw 1 0x26) s ∧ Clear (.crd 3 5) s ∧ Clear (.rdtick 32) s := by
  simp only [clear_iff]; decide +kernel
/-- Every vector register of a reset bank has 64 lanes. -/
theorem reset_lanes (v : Cluster) (r : Nat) : (Context.reset.vreg v r).lanes.length = 64 := by
  have h : (List.replicate 16 VReg.zero).getD r VReg.zero = VReg.zero := by
    rw [List.getD_eq_getElem?_getD, List.getElem?_replicate]; split <;> rfl
  cases v <;> (change ((List.replicate 16 VReg.zero).getD r VReg.zero).lanes.length = 64; rw [h]; rfl)
/-- SpillStackMovesRecords: a push and a pop of s1 to s3 with just enough room, the four traps, and a push and a pop of one record past the window. -/
theorem test_witness_spill : let s := ctx (fun c => { c with ssp := 0x1000, sslim := 0xFD0, sstop := 0xFFF0 })
    let t := ctx (fun c => { c with ssp := 0xFD0, sstop := 0x1000 })
    let f := ctx (fun c => { c with ssp := 0x400010, sslim := 0x3FFFE0, sstop := 0x400040 })
    (Clear (.pushm 1 3 0) f ∧ rangeBad 0 1 3 = false ∧ f.core.act.sslim.toNat + (3 - 1 + 1) * recordBytes 0 ≤ f.core.act.ssp.toNat ∧
      0x400000 < f.core.act.ssp.toNat - (3 - 1 + 1) * recordBytes 0 + (3 - 1 + 1) * recordBytes 0 ∧ Clear (.popm 1 3 0) f ∧
      f.core.act.ssp.toNat + (3 - 1 + 1) * recordBytes 0 ≤ f.core.act.sstop.toNat) ∧
    Clear (.pushm 1 3 0) s ∧ rangeBad 0 1 3 = false ∧ s.core.act.sslim.toNat + 48 ≤ s.core.act.ssp.toNat ∧
    xlate 0xFD0 48 .write 16 s = .ok (homeSpan s 0xFD0 48) ∧ (∀ v r, (s.core.act.vreg v r).lanes.length = 64) ∧
    s.core.act.pushBusy ≤ s.core.cycle ∧ blocked s [homeSpan s 0xFD0 48] = false ∧ s.memOk = true ∧ (homeSpan s 0xFD0 48).inMemory s ∧
    mayPerform s s.core.act.holds (mkAccess s 0 false false 0xFD0 [homeSpan s 0xFD0 48] (.store (toBytes 16 0)) .none 0) = true ∧
    partialBad s (localOf (homeSpan s 0xFD0 48).pa) 48 = false ∧
    Clear (.popm 1 3 0) t ∧ 0xFD0 + 3 * recordBytes 0 ≤ t.core.act.sstop.toNat ∧ xlate 0xFD0 48 .read 16 t = .ok (homeSpan t 0xFD0 48) ∧
    blocked t [homeSpan t 0xFD0 48] = false ∧ mayPerform t t.core.act.holds (mkAccess t 0 false false 0xFD0 [homeSpan t 0xFD0 48] .load .none 0) = true ∧
    spanBad t (localOf (homeSpan t 0xFD0 48).pa) 48 = false ∧
    Clear (.pushm 3 1 0) s ∧ rangeBad 0 3 1 = true ∧ Clear (.pushm 0 3 0) s ∧ rangeBad 0 0 3 = false ∧
    s.core.act.ssp.toNat < s.core.act.sslim.toNat + (3 - 0 + 1) * recordBytes 0 ∧ Clear (.popm 0 8 3) t ∧ rangeBad 3 0 8 = true ∧
    Clear (.popm 0 3 4) t ∧ rangeBad 4 0 3 = false ∧ t.core.act.sstop.toNat < t.core.act.ssp.toNat + (3 - 0 + 1) * recordBytes 4 := by
  simp only [clear_iff, Piece.inMemory]
  refine ⟨by decide +kernel, ?_, ?_, ?_, ?_, fun v r => reset_lanes v r, ?_⟩ <;> decide +kernel
/-- TransfersLoopsAndMicroSequencesStart: every transfer, the loop instructions, LOOPX with and without its level, REPV, LAYER and LRET. -/
theorem test_witness_transfers : let s := ctx (regs 0x40 0 0)
    let t := ctx (fun c => { c with loops := [⟨16, 32, 2, 0, false⟩] })
    Clear (.br 0x7FFF) s ∧ Clear (.ret 1) s ∧ Clear (.jr 1 0x1FF) s ∧ Clear (.call 32 1) s ∧ Clear (.callr 1 1) s ∧ Clear (.loop 31 1) s ∧
    Clear (.loopImm 0 0xFFF) s ∧ Clear (.loopx 0) s ∧ s.core.act.loops.length ≤ 0 ∧ Clear (.loopx 0) t ∧ t.core.act.loops[0]?.isSome ∧
    Clear (.repv 7 1) s ∧ Clear (.repvImm 7 0) s ∧ Clear (.layer 0x7FFF) s ∧ Clear .lret s := by
  simp only [clear_iff]; decide +kernel
/-- TheEndOfABundleGoesOn: a transfer; a level in its last iteration inside one that is not; no level. -/
theorem test_witness_bundle_end : let c := (ctx id).core.act
    let l : Level := ⟨0, 0, 1, 3, false⟩
    let m : Level := ⟨0, 0, 2, 0, false⟩
    ({ c with xfer := some ⟨0x3FFF0, false, none⟩ } : Context).xfer = some ⟨0x3FFF0, false, none⟩ ∧ c.xfer = none ∧
    ({ c with loops := [l, m] } : Context).loops = [l] ++ [m] ∧ l.last = c.here ∧ l.micro = c.micro ∧ l.rem.toNat ≤ 1 ∧ 1 < m.rem.toNat := by
  decide +kernel
/-- ATrapEntersTheHandler, SoftwareTrapsAndReturn: user mode with a handler; TRAP, SVC and ERET; a pending software trap at a bundle's end. -/
theorem test_witness_traps : let s := ctx (fun c => { c with stw := 0x40, tvec := 0x7F000 })
    let t := ctx (fun c => { c with soft := some (0x15, 7, 2) })
    s.core.slot.k < 4 ∧ s.core.act.priv = false ∧ toHandler 0x22 = true ∧ bit s.core.act.tvec.toNat 18 = true ∧ s.core.swapReq ≠ some .exited ∧
    Clear (.trap 0x1FF) s ∧ Clear (.svc 0) s ∧ Clear .eret zero ∧ t.core.act.soft = some (0x15, 7, 2) ∧ t.core.swapReq = none ∧
    t.core.act.rep = none ∧ t.core.act.xfer = none ∧ t.core.act.loops = [] := by
  simp only [clear_iff]; decide +kernel
/-- CausesThatEndTheContext: supervisor mode; user mode without a handler and with a cause that has none. -/
theorem test_witness_endings : let s := ctx (fun c => { c with stw := 0x40 })
    zero.core.act.priv = true ∧ zero.core.swapReq ≠ some .exited ∧ s.core.act.priv = false ∧ s.core.act.tvec.getLsbD 18 = false ∧
    toHandler 0xB7 = false := by
  decide +kernel

/-- ASID 0 is enabled and has two endpoints: tables in LPDDR. -/
def tabled : State := { setReg 0x2301000 0x10000080000 (setReg 0x3000000 0x10000000000 zero) with mem := [(0x10000000018, 1), (0x10000080008, 2)] }
/-- The slot waits for access 0, which has answered with bytes. -/
def answering (ph : Nat) (bs : List Byte) (s : State) : State :=
  modAct (fun c => { c with wait := .access 0 ph }) { s with nextId := 1, accesses := [{ mkAccess s 0 false false 0x40 [homeSpan s 0x40 64] .load .waiting 0 with
    performed := true, answered := true, data := bs }] }
/-- The answered access satisfies a test. -/
def answer (s : State) (p : Access → Bool) : Bool := (accessAt s 0).any (fun x => x.answered && x.failed.isNone && p x)
/-- A task with an identifier in band 0. -/
def someTask (t : Nat) (bs : List Byte) : Task := { newTask zero 0 bs with taskid := t }

/-- WaitingInstructionsMakeTheirAccess: a spawn at address 64 and an arrival at the window's last 16 bytes. -/
theorem test_witness_waiting : let s := ctx (regs 0x40 0x3FFFF0 1)
    (awaited s (.tspawn 1)).isSome ∧ Clear (.tspawn 1) s ∧ s.core.act.wait = .none ∧ allPerformed s s.core.act.tid = true ∧
    xlate 0x40 64 .read 64 s = .ok (homeSpan s 0x40 64) ∧ Reachable [homeSpan s 0x40 64] 0x40 .load s ∧
    (awaited s (.bara 3 2 3)).isSome ∧ Clear (.bara 3 2 3) s ∧ xlate 0x3FFFF0 16 .atomic 16 s = .ok (homeSpan s 0x3FFFF0 16) ∧
    Reachable [homeSpan s 0x3FFFF0 16] 0x3FFFF0 (.arrive 1) s ∧ Clear (.tjoin 3 2) s ∧ Clear (.waitSw 0 2 3) s ∧ Clear (.waitBs 0 2 3) s ∧
    Clear (.npost 3 1) s := by
  simp only [clear_iff, Reachable]; (repeat' apply And.intro) <;> decide +kernel
/-- WaitingInstructionsTakeTheAnswer: a good and a bad descriptor, a join word full and not, and a good and a bad work request. -/
theorem test_witness_answers : let s := answering 0 (List.replicate 64 0) tabled
    let t := answering 0 (toBytes 64 (2 ^ 32 + 255 + 2 ^ 176)) tabled
    Clear (.tspawn 1) s ∧ answer s (fun x => descriptorBad (taken x s) x.data == none) ∧ answer t (fun x => descriptorBad (taken x t) x.data == some 0x16) ∧
    Clear (.tspawn 1) t ∧ Clear (.tjoin 3 1) s ∧ answer s (fun x => decide (leAt x.data 4 4 ≤ leAt x.data 0 4)) ∧
    answer (answering 0 (toBytes 16 (2 ^ 32)) zero) (fun x => decide (leAt x.data 0 4 < leAt x.data 4 4)) ∧ Clear (.waitSw 0 1 2) s ∧ Clear (.waitBs 0 1 2) s ∧
    Clear (.bara 3 1 2) s ∧ Clear (.npost 3 1) s ∧ answer s (fun x => requestBad (taken x s) 0 x.data == none) ∧
    answer t (fun x => requestBad (taken x t) 0 x.data == some 0x00) := by
  simp only [clear_iff]; (repeat' apply And.intro) <;> decide +kernel
/-- TexitYieldAndHostWindow: a task drained and one with a command buffered, no swap asked for, and HWIN. -/
theorem test_witness_texit : let s := ctx (fun c => { c with task := some (someTask 5 (List.replicate 64 0)) })
    let t := answering 0 [] zero
    Clear (.texit 1) s ∧ undrained s = false ∧ s.core.act.task.isSome ∧ Clear (.texit 1) { t with accesses := t.accesses.map (fun a => { a with performed := false }) } ∧
    undrained { t with accesses := t.accesses.map (fun a => { a with performed := false }) } = true ∧ Clear .yield s ∧ s.core.swapReq = none ∧
    Clear (.hwin 0x1FF) s := by
  simp only [clear_iff]; (repeat' apply And.intro) <;> decide +kernel
/-- PowerControlAndInvalidation: OPSEL, FIDSET, PSUB set and cleared, TLBIR of another ASID and of the own one before and after its read. -/
theorem test_witness_power : let s := ctx (regs 0x20 (2 ^ 49) 1)
    let t := ctx (fun c => { regs 0 0 1 c with wait := .timed 5 [] })
    Clear (.opsel 7) s ∧ Clear (.fidset 3) s ∧ Clear (.psub 1 2 7) s ∧ (readS 2 s).getLsbD 49 = true ∧ Clear (.psub 1 3 0) s ∧
    (readS 3 s).getLsbD 49 = false ∧ xlate 0x20 32 .write 32 s = .ok (homeSpan s 0x20 32) ∧
    Clear (.tlbir 3) s ∧ s.core.act.asid ≠ 1 ∧ Clear (.tlbir 1) (ctx (regs 0 0 0)) ∧ Clear (.tlbirAll 1) s ∧ s.core.act.wait = .none ∧
    Clear (.tlbirAll 1) t ∧ t.core.time < 5 ∧ Clear (.tlbirAll 1) { t with core := { t.core with time := 5 } } ∧ (asidEntry t 0).rtab = 0 ∧
    (readRanges t 0).2 = [] := by
  simp only [clear_iff]; (repeat' apply And.intro) <;> decide +kernel
/-- LoadsReturnAndStoresWriteTheirBytes, AtomicsReplaceAndReturn: the window's last bytes. -/
theorem test_witness_memory : let s := ctx (regs 0x3FFFF8 7 0)
    let p := homeSpan s 0x3FFFF8 8
    (loadForm s (.lddS 32 1 1 0xA0)).isSome ∧ Clear (.lddS 32 1 1 0xA0) s ∧ inHome 0x3FFFF8 8 s ∧ s.memOk = true ∧ p.inMemory s ∧
    mayGo true false true 0x3FFFF8 [p] .load s ∧ (storeForm s (.std 2 1 1 0)).isSome ∧ Clear (.std 2 1 1 0) s ∧
    mayGo false true false 0x3FFFF8 [p] (.store (toBytes 8 7)) s ∧ (atomicForm s (.cas 2 1 2 3 1)).isSome ∧ Clear (.cas 2 1 2 3 1) s ∧
    Clear (.amoFadd32 3 1 2 0) s ∧ inHome 0x3FFFF8 4 s ∧ mayGo true true false 0x3FFFF8 [p] (.atomic (.cas 7) 7) s := by
  simp only [clear_iff, Reachable, mayGo, inHome, Piece.inMemory]; (repeat' apply And.intro) <;> decide +kernel
/-- AccessesAreSentOrTrap: another core's slice through a range; a misaligned address and one past 57 bits. -/
theorem test_witness_far : let far : W64 := 0x400000
    let s := ctx (fun c => { regs far 1 (2 ^ 57) c with ranges := [⟨true, true, true, true, 0, 0x400000, false, 0x800000, 0x1000000000⟩] })
    let p : Piece := ⟨0x1000400000, 8, 0⟩
    (loadForm s (.lddS 3 1 0 0)).isSome ∧ Clear (.lddS 3 1 0 0) s ∧ 0x400000 < far.toNat % 2 ^ 57 + 8 ∧ xlate far.toNat 8 .read 8 s = .ok p ∧
    Reachable [p] far.toNat .load s ∧ Clear (.std 2 1 0 0) s ∧ xlate far.toNat 8 .write 8 s = .ok p ∧
    Reachable [p] far.toNat (.store (toBytes 8 1)) s ∧ Clear (.amoAdd 3 1 2 0 1) s ∧ xlate far.toNat 8 .atomic 8 s = .ok p ∧
    Reachable [p] far.toNat (.atomic .add 1) s ∧ Clear (.lddS 3 2 0 0) s ∧ (1 : Nat) % 8 ≠ 0 ∧ Clear (.stw 2 3 0 0) s ∧
    (2 ^ 57 : Nat) % 2 ^ 57 + 4 ≤ 0x400000 ∧ 2 ^ 57 ≤ (2 ^ 57 : W64).toNat ∧ Clear (.amoFadd32 3 2 2 0) s := by
  simp only [clear_iff, Reachable]; (repeat' apply And.intro) <;> decide +kernel
/-- FencesSyncsAndBarrierSlots: fences, the three syncs, SYNCA waiting for a segment that is over, a slot armed, retired and with count 0. -/
theorem test_witness_ordering : let s := ctx (regs 0x3FFFF0 0 1)
    let t := ctx (fun c => { c with wait := .segments [(0, 0, 0)] })
    let p := homeSpan s 0x3FFFF0 16
    Clear (.fence 5 0xFFFF) s ∧ Clear .synci s ∧ Clear .synca s ∧ s.core.act.wait = .none ∧ Clear .synca t ∧ unsettled false t = false ∧
    (∀ g ∈ [(0, 0, 0)], g ∉ segmentsBegun t.core.act) ∧ Clear .syncaAll s ∧ s.memOk = true ∧ inHome 0x3FFFF0 16 s ∧ p.inMemory s ∧
    Clear (.bars 2 1 2) s ∧ Clear (.bars 5 1 3) s ∧ mayGo false false false 0x3FFFF0 [p] (.arm 1 5) s ∧ Clear (.barrt 1) s ∧
    mayGo false false false 0x3FFFF0 [p] .retire s := by
  simp only [clear_iff, Reachable, mayGo, inHome, Piece.inMemory]; (repeat' apply And.intro) <;> decide +kernel
/-- BarrierNetworksCountArrivals: scopes of one core, a disabled and an enabled identifier of the quad's network, and a wait for its release. -/
theorem test_witness_networks : let s := setReg (0x1000100 + 8 * 15) (2 ^ 35 + 1) zero
    let t := modAct (fun c => { c with wait := .barrier .quad 0 15 0 }) s
    let f : State := { setReg (barcfgAddr .pod 0 3) (2 ^ 35 + 1) zero with nextId := 9, accesses := [{ mkAccess zero 0 false false 0 [⟨3 * 2 ^ 46, 8, 0⟩] (.store []) .none 0 with
      taskid := zero.core.act.tid, performed := true, sent := some 0 }] }
    let u := modAct (fun c => { c with wait := .none }) { answering 0 [] s with accesses := (answering 0 [] s).accesses.map (fun a => { a with performed := false }) }
    Clear (.barn 1 0) s ∧ Clear (.barnA 1 0) s ∧ s.core.act.wait = .none ∧ ¬Claims.mayArrive (scopeOf 2) 0 s ∧ Clear (.barn 2 0) s ∧
    Claims.mayArrive (scopeOf 2) 15 s ∧ Clear (.barn 2 15) s ∧ Clear (.barnA 2 15) s ∧ quiet (scopeOf 2) s ∧ Claims.mayArrive (scopeOf 2) 15 u ∧
    ¬allPerformed u u.core.act.tid = true ∧ Clear (.barn 2 15) u ∧ Clear (.barnA 2 15) u ∧ u.core.act.wait = .none ∧ Clear (.barn 2 15) t ∧
    t.core.act.wait = .barrier (scopeOf 2) (network (scopeOf 2) t.lcn) 15 0 ∧
    scopeOf 5 = .pod ∧ Claims.mayArrive (scopeOf 5) 3 f ∧ Clear (.barn 5 3) f ∧ allPerformed f f.core.act.tid = true ∧
    (∃ x ∈ f.accesses, x.taskid = f.core.act.tid ∧ x.id < f.nextId ∧ x.sent ≠ none ∧ ¬x.answered = true) := by
  simp only [clear_iff, Claims.mayArrive, quiet]; (repeat' apply And.intro) <;> decide +kernel
/-- CircuitsAreOpenedHeldClosedAndQueried: a bad far core, no free handle, handle 7 free, and a handle in each state that is told apart. -/
theorem test_witness_circuits : let s := ctx (regs 0x7FF 4 7)
    let t := ctx (fun c => { regs 0x7FF 4 7 c with handles := List.replicate 7 { Handle.free with st := .opened } ++ [Handle.free] })
    let u := ctx (fun c => { regs 0x7FF 4 7 c with handles := List.replicate 8 { Handle.free with st := .opened } })
    Clear (.copen 3 2 1) s ∧ farBad s 4 = false ∧ Clear (.copen 3 1 2) s ∧ farBad s 0x7FF = true ∧
    Clear (.copen 3 2 1) u ∧ (∀ v ∈ u.core.act.handles, v.st ≠ .free) ∧ Clear (.copen 3 2 1) t ∧ (t.core.act.handles[7]?).map Handle.st = some .free ∧
    (∀ j < 7, ∀ v, t.core.act.handles[j]? = some v → v.st ≠ .free) ∧ farBad t 4 = false ∧ Clear (.chold 3 3 2) t ∧
    (t.core.act.handles.getD 7 Handle.free).st ≠ .opened ∧ Clear (.chold 3 2 1) t ∧ (t.core.act.handles.getD 4 Handle.free).st = .opened ∧
    (t.core.act.handles.getD 4 Handle.free).expired = false ∧
    ((ctx (fun c => { c with handles := List.replicate 8 { Handle.free with st := .opened, expired := true } })).core.act.handles.getD 0 Handle.free).expired = true ∧
    Clear (.chold 3 0 0) (ctx (fun c => { c with handles := List.replicate 8 { Handle.free with st := .opened, expired := true } })) ∧
    Clear (.cclose 2) t ∧ Clear (.cstat 3 3) t := by
  simp only [clear_iff]; (repeat' apply And.intro) <;> decide +kernel

/-- VectorElementsGetTheirResult: a sum of FP32 registers, an integer product that accumulates, a shuffle of one source, and VSEL's word. -/
theorem test_witness_elements : let s := ctx (tagged 1 1)
    let t := ctx (tagged 9 9)
    (elementForm s (.vadd .va 15 1 2 0)).any (fun f => decide (∀ p ∈ f.srcs, p.2 < 13 ∧ p.2 = 1)) ∧ Clear (.vadd .va 15 1 2 0) s ∧
    (∀ n < 5, bit s.core.act.fen n = true → False) ∧ (elementForm t (.vimul .va 3 1 2 0)).any (fun f => decide (∀ p ∈ f.srcs, p.2 = 9)) ∧
    Clear (.vimul .va 3 1 2 0) t ∧ (laneForm t (.vshuf .va 16 1 0 7)).any (fun f => decide (f.srcs.length = 1)) ∧ Clear (.vshuf .va 16 1 0 7) t := by
  simp only [clear_iff]; (repeat' apply And.intro) <;> decide +kernel
/-- VectorSourcesOfWrongTagsTrap: an integer tag in an FP sum, a second source of another tag, and a logic source of tag 15. -/
theorem test_witness_wrong_tags : let s := ctx (tagged 1 9)
    let t := ctx (tagged 1 2)
    let u := ctx (tagged 15 15)
    (elementForm s (.vadd .va 3 1 2 0)).any (fun f => decide (f.srcs = [(1, 1)] ++ (2, 9) :: []) && decide (f.accepted = some [1, 2, 3, 12])) ∧
    Clear (.vadd .va 3 1 2 0) s ∧ (elementForm t (.vadd .va 3 1 2 0)).any (fun f => decide (f.srcs = (1, 1) :: [] ++ (2, 2) :: [])) ∧
    Clear (.vadd .va 3 1 2 0) t ∧ (laneForm u (.vand .va 3 1 2 0)).any (fun f => decide (f.srcs = [(1, 15)]) && decide (f.accepted = none)) ∧
    Clear (.vand .va 3 1 2 0) u ∧ Clear (.vand .va 3 1 2 0) (ctx (tagged 1 15)) ∧
    (laneForm (ctx (tagged 1 15)) (.vand .va 3 1 2 0)).any (fun f => decide (f.loose = [(2, 15)]) && decide (∀ q ∈ f.srcs, q.2 < 13)) := by
  simp only [clear_iff]; (repeat' apply And.intro) <;> decide +kernel
/-- MasksAreComputed: compares of FP32 and FP4 registers, mask logic and the moves. -/
theorem test_witness_masks : let s := ctx (tagged 1 1)
    let t := ctx (tagged 11 11)
    Clear (.vcmp .va 7 7 1 2 0) s ∧ (readV .va 1 s).tag = (readV .va 2 s).tag ∧ (readV .va 1 s).tag ∈ [1, 2, 3] ∧
    (∀ f < 5, bit s.core.act.fen f = true → False) ∧ Clear (.vicmp .va 0 7 1 2 0) t ∧ (readV .va 1 t).tag ∈ [0, 9, 10, 11] ∧
    Clear (.mlog .vb 7 0 7 7) s ∧ Clear (.mpop .va 32 7 0) s ∧ Clear (.mffs .va 3 0 0) s ∧ Clear (.mmovs .va 3 7) s ∧ Clear (.mfroms .vb 7 1) s := by
  simp only [clear_iff]; (repeat' apply And.intro) <;> decide +kernel
/-- PairsAreOrderedAndFormatsConverted: pairs of FP32 values in registers 1 and 2 with indices in 9 and 10; a widening and a narrowing part. -/
theorem test_witness_pairs : let s := ctx (tagged 1 1)
    let t := ctx (tagged 2 1)
    Clear (.vcx .va 1 1 2 0) s ∧ (readV .va 9 s).tag = (readV .va 10 s).tag ∧ (readV .va 9 s).tag = 0 ∧ (readV .va 1 s).tag = (readV .va 2 s).tag ∧
    Clear (.vcvt .va 3 2 1 2 0) t ∧ (readV .va 2 t).tag = 1 ∧ 1 < max (perLane 2 / perLane 1) (perLane 1 / perLane 2) ∧
    t.core.act.group.dests.contains (.v .va 3) = false ∧ t.core.act.resReady (.v .va 3) = true ∧ (∀ f < 5, bit t.core.act.fen f = true → False) ∧
    Clear (.vcvt .va 16 1 1 1 0) t ∧ (readV .va 1 t).tag = 2 := by
  simp only [clear_iff]; (repeat' apply And.intro) <;> decide +kernel
/-- ReductionsAndScansRunOverTheEnabledElements: FADD, FMAX, IADD and an FP32 running sum, none with a flag enabled. -/
theorem test_witness_reductions : let s := ctx (tagged 1 9)
    Clear (.vreds .va 32 1 0 0) s ∧ (readV .va 1 s).tag ∈ [1, 2, 3] ∧ Clear (.vreds .va 3 1 1 0) s ∧ Clear (.vreds .va 3 2 3 0) s ∧
    (readV .va 2 s).tag ∈ [9, 10, 11] ∧ Clear (.vreds .va 3 2 7 0) s ∧ Clear (.vscan .va 16 1 0 0) s ∧ Clear (.vscan .va 15 2 3 0) s ∧
    (∀ f < 5, bit s.core.act.fen f = true → False) := by
  simp only [clear_iff]; (repeat' apply And.intro) <;> decide +kernel
/-- HistogramsCountExponents. -/
theorem test_witness_histograms : let s := ctx (tagged 3 1)
    (s.core.act.hist .va).length = 64 ∧ (s.core.act.hist .vb).length = 64 ∧ Clear (.vhist .va 1 0) s ∧ (readV .va 1 s).tag ∈ [1, 2, 3] ∧
    Clear (.vhclr .vb) s ∧ Clear (.vhclrRdc .vb 16) s := by
  simp only [clear_iff]; (repeat' apply And.intro) <;> decide +kernel
/-- QuantisationFillsAndReadsParts: the highest part of a B8 image and the highest of a B4 image. -/
theorem test_witness_quantisation : let s := ctx (tagged 1 8)
    let t := ctx (tagged 1 6)
    Clear (.vqnt .va 5 1 3 2) s ∧ (readV .va 1 s).tag = 1 ∧ (3 : Nat) < 2 + 2 ∧ (∀ f < 5, bit s.core.act.fen f = true → False) ∧
    Clear (.vdqnt .va 5 2 3 0) s ∧ (readV .va 2 s).tag = 8 ∧ (3 : Nat) < 8 - 4 ∧
    (∀ q < 4, fld (imageOf (readV .va 2 s)) (1024 + 16 * (4 * 3 + q)) 8 ≠ 0xFF) ∧ Clear (.vdqnt .va 5 2 1 0) t ∧ (readV .va 2 t).tag = 6 := by
  simp only [clear_iff]; (repeat' apply And.intro) <;> decide +kernel
/-- TagsPermutationsAndBroadcasts: tags 12 and 13, an index register, a broadcast. -/
theorem test_witness_tags : let s := ctx (tagged 12 11)
    Clear (.vtag .va 16 1 12 0) s ∧ (readV .va 1 s).tag < 13 ∧ Clear (.vperm .va 3 1 2 0) s ∧ (readV .va 2 s).tag = 11 ∧ Clear (.vbcastS .va 3 1 12) s ∧
    Clear (.vtag .va 3 1 13 0) s ∧ Clear (.vbcastS .va 3 1 15) s := by
  simp only [clear_iff]; (repeat' apply And.intro) <;> decide +kernel
/-- VectorLoadsFillTheEnabledLanes: the last 256 bytes, no lane enabled, strided and gathered lanes at the window's end. -/
theorem test_witness_vector_loads : let s := ctx (fun c => { tagged 11 11 c with sreg := (regs 0x3FFF00 4 0 c).sreg, ma := [BitVec.allOnes 64, 0, 0x8000000000000000, 1, 0, 0, 0, 0] })
    let g := ctx (fun c => { tagged 0 0 c with sreg := (regs 0 4 0 c).sreg, va := [VReg.zero, VReg.zero, ⟨List.replicate 64 0x3FFFFC, 11⟩] ++ List.replicate 13 VReg.zero })
    let acc := blockLanes 1 (readMask .va 0 s)
    Clear (.ldv .va 16 1 1 0) s ∧ spanInHome 0x3FFF00 (lanes acc) s ∧ lanes acc ≠ [] ∧
    mayGo false false false (BitVec.ofNat 64 (0x3FFF00 + 4 * (lanes acc).headD 0)) (spanOf 0x3FFF00 (lanes acc) s) .load s ∧
    Clear (.ldv .va 3 1 6 2) s ∧ lanes (blockLanes 6 (readMask .va 2 s)) = [] ∧ lanes (readMask .va 2 s) = [63] ∧
    Clear (.ldvs .va 3 1 2 0) s ∧ lanesInHome (fun l => (readS 1 s + BitVec.ofNat 64 l * readS 2 s).toNat) (lanes (readMask .va 0 s)) s ∧
    Clear (.gath .va 3 1 2 0) g ∧ (readV .va 2 g).tag = 11 ∧
    lanesInHome (fun l => (readS 1 g + ((readV .va 2 g).lane l).setWidth 64).toNat) (lanes (readMask .va 0 g)) g ∧
    mayGo false false false 0x3FFFFC ((List.replicate 64 0x3FFFFC).map (fun x => homeSpan g x 4)) .load g ∧ Clear (.ldvs .va 3 1 2 1) s ∧ readMask .va 1 s = 0 := by
  simp only [clear_iff, Reachable, mayGo, spanInHome, lanesInHome]; (repeat' apply And.intro) <;> decide +kernel
/-- VectorStoresWriteTheEnabledLanes: one lane at the window's end, scattered lanes at one address, and none enabled. -/
theorem test_witness_vector_stores : let s := ctx (fun c => { tagged 6 0 c with sreg := (regs 0x3FFF60 0 0 c).sreg, ma := [BitVec.allOnes 64, 0, 0x8000000000, 1, 0, 0, 0, 0] })
    let g := ctx (fun c => { c with va := [VReg.zero, ⟨List.replicate 64 0x3FFFFC, 0⟩, ⟨List.replicate 64 7, 12⟩] ++ List.replicate 13 VReg.zero })
    let acc := lanes (blockLanes 6 (readMask .va 2 s))
    s.memOk = true ∧ Clear (.stv .va 1 1 2) s ∧ (readV .va 1 s).tag < 13 ∧ acc = [39] ∧ spanInHome 0x3FFF60 acc s ∧ (∀ p ∈ spanOf 0x3FFF60 acc s, p.inMemory s) ∧
    mayGo false false false (BitVec.ofNat 64 (0x3FFF60 + 4 * 39)) (spanOf 0x3FFF60 acc s) (.store (laneBytes (readV .va 1 s) acc)) s ∧
    Clear (.scat .va 2 1 1 0) g ∧ (readV .va 1 g).tag = 0 ∧ (readV .va 2 g).tag < 13 ∧ lanesInHome (fun l => ((readV .va 1 g).lane l).toNat) (lanes (readMask .va 0 g)) g ∧
    (∀ l ∈ lanes (readMask .va 0 g), (homeSpan g ((readV .va 1 g).lane l).toNat 4).inMemory g) ∧
    mayGo false false false 0x3FFFFC ((lanes (readMask .va 0 g)).map (fun l => homeSpan g ((readV .va 1 g).lane l).toNat 4))
      (.store (laneBytes (readV .va 2 g) (lanes (readMask .va 0 g)))) g ∧
    Clear (.stv .va 1 1 1) s ∧ lanes (blockLanes 6 (readMask .va 1 s)) = [] ∧ Clear (.scat .va 2 1 2 1) s ∧ lanes (readMask .va 1 s) = [] ∧
    (readV .va 2 s).tag = 0 := by
  simp only [clear_iff, Reachable, mayGo, spanInHome, lanesInHome, Piece.inMemory]; (repeat' apply And.intro) <;> decide +kernel

/-- Tiles 0 and 1 are configured with a word; accumulators 0 and 1 (specifiers 8 and 9) have a kind. -/
def tiled (w : BitVec 18) (k l : AccKind) (c : Context) : Context :=
  { c with
    tiles := [{ Tile.zero with tc := w }, { Tile.zero with tc := w }] ++ List.replicate 6 Tile.zero
    accs := [{ Acc.zero with kind := k, k := if k = .ranked then 1 else 0 }, { Acc.zero with kind := l, k := if l = .ranked then 1 else 0 }] ++ List.replicate 2 Acc.zero }
/-- Two rows of two FP32 elements. -/
def fpTile : BitVec 18 := 2 + 8 * 2 ^ 6 + 1 * 2 ^ 14

/-- TilesAreConfiguredAndMasked: a good and a bad word, TZERO of an unconfigured and of a configured tile, the masks. -/
theorem test_witness_tiles : let s := ctx (fun c => tiled fpTile .float .float (regs 0x4202 0x40 0 c))
    Clear (.tcfg 27 1) s ∧ tcfgOk 0x4202 = true ∧ Clear (.tcfg 20 2) s ∧ tcfgOk 0x40 = false ∧ Clear (.tcfgRd 3 20) s ∧ Clear (.tzero 7) s ∧
    (tileAt s 7).nrows = 0 ∧ Clear (.tzero 0) s ∧ (tileAt s 0).nrows ≠ 0 ∧ Clear (.tmsk 19 1) s ∧ Clear (.tmsk 12 1) s ∧ Clear (.tmskRd 16 15) s := by
  simp only [clear_iff]; (repeat' apply And.intro) <;> decide +kernel
/-- TileRowsMoveToAndFromMemory: two rows of 8 bytes at the end of the window, one 16-byte unit apart. -/
theorem test_witness_tile_memory : let s := ctx (fun c => tiled fpTile .float .float (regs 0x3FFFE0 16 0 c))
    let us := tileUnits 0x3FFFE0 16 8 (tileRows s 0 0)
    let ps := us.map (fun u => homeSpan s u.1 u.2)
    goodTile (tileAt s 0) ∧ 0 < s.core.act.tiles.length ∧ (tileAt s 0).nrows ≠ 0 ∧ (tileAt s 0).mrow = 8 ∧ us = [(0x3FFFE0, 8), (0x3FFFF0, 8)] ∧
    (∀ u ∈ us, u.1 + u.2 ≤ 0x400000) ∧ Clear (.tld 0 1 2 0) s ∧ mayGo false false false (readS 1 s) ps .load s ∧ Clear (.tst 0 1 2 0) s ∧
    Reachable ps 0x3FFFE0 (.store ((tileRows s 0 0).flatMap (fun r => (tileAt s 0).toMem ((tileAt s 0).row r)))) s := by
  simp only [clear_iff, Reachable, mayGo, goodTile]; (repeat' apply And.intro) <;> decide +kernel
/-- TileRowsAndColumnsMove: the last row and the last column of a tile of FP32. -/
theorem test_witness_tile_rows : let s := ctx (fun c => tiled fpTile .float .float { tagged 1 0 c with sreg := (regs 1 0 0 c).sreg })
    Clear (.trwr 0 1 1) s ∧ goodTile (tileAt s 0) ∧ (readV .va 1 s).lanes.length = 64 ∧ (readV .va 1 s).tag = (tileAt s 0).fmt ∧ 1 < (tileAt s 0).nrows ∧
    Clear (.trrd 16 1 1) s ∧ Clear (.tcwr 0 1 1) s ∧ isBlock (tileAt s 0).fmt = false ∧ 1 < (tileAt s 0).elems ∧ Clear (.tcrd 3 1 1) s := by
  simp only [clear_iff, goodTile]; (repeat' apply And.intro) <;> decide +kernel
/-- MatrixInstructionsRunOrSkip, MatrixWordsAreDotProducts: an MMA of two FP32 tiles at F0; an MMAB into a settled ranked accumulator and into a
plain one; a complex MMAC. -/
theorem test_witness_matrix : let s := ctx (tiled fpTile .float .ranked)
    let i := ctx (fun c => let d := tiled fpTile .float .ranked c; { d with accs := [Acc.zero, ⟨.ranked, 1, false, false, List.replicate 32 1,
      List.replicate 32 (0x40000000 :: List.replicate 31 0), none, none, false, none⟩, Acc.zero, Acc.zero] })
    let v := ctx (tiled (32 + 128 * 2 ^ 6 + 12 * 2 ^ 14) .float .float)
    let u := modSlot (fun x => { x with xb := 1, hdr := true }) i
    (mmaForm (.mma 8 0 1 3)).isSome ∧ Clear (.mma 8 0 1 3) s ∧ mmaState s false 8 0 1 = none ∧ mmaBlocks s false 0 1 3 = none ∧
    levelOf s s.lcn = 0 ∧ (accAt s 8).kind ≠ .ranked ∧ goodAcc (accAt s 8) ∧ 8 - 8 < s.core.act.accs.length ∧
    Clear (.mmac 8 0 1 0) v ∧ mmaState v true 8 0 1 = none ∧ (tileAt v 0).fmt = 12 ∧ Clear (.mmab 9 0 1 0) u ∧ mmaState u false 9 0 1 = none ∧ skips u 9 0 0 = true ∧
    Clear (.mmab 9 0 1 0) s ∧ skips s 9 0 0 = false := by
  simp only [clear_iff, goodAcc]; (repeat' apply And.intro) <;> decide +kernel
/-- AccumulatorsAreClearedMovedAndConverted: the last and a missing half, an integer and an untyped vector, a configured FP32 tile. -/
theorem test_witness_accumulators : let s := ctx (fun c => tiled fpTile .float .int { tagged 1 11 c with sreg := (regs 15 16 0 c).sreg })
    Clear (.aczF 11) s ∧ Clear (.aczI 8) s ∧ Clear (.acrd 16 9 1) s ∧ goodAcc (accAt s 9) ∧ Clear (.acrd 3 8 2) s ∧ Clear (.acwr 8 1 1) s ∧
    goodAcc (accAt s 8) ∧ (readV .va 1 s).tag = 1 ∧ (readV .va 1 s).lanes.length = 64 ∧ Clear (.acwr 9 2 1) s ∧ (accAt s 9).kind = .int ∧
    (readV .va 2 s).tag = 11 ∧ Clear (.accvt 0 8 3) s ∧ (tileAt s 0).nrows ≠ 0 ∧ (tileAt s 0).fmt = 1 ∧ (accAt s 8).kind ≠ .ranked := by
  simp only [clear_iff, goodAcc]; (repeat' apply And.intro) <;> decide +kernel
/-- RankedListsDependOnlyOnTheSetOffered, RankedAccumulatorsTakeOffersAndAreRead. -/
theorem test_witness_ranked : let s := ctx (fun c => tiled fpTile .ranked .float (tagged 1 0 c))
    (∀ p : Nat × Nat, p ∈ [(1, 2), (3, 4), (1, 2)] ↔ p ∈ [(3, 4), (1, 2)]) ∧
    Clear (.rkdecl 11 1 15 1) s ∧ Clear (.rkrel 8) s ∧ (accAt s 8).kind = .ranked ∧ (accAt s 9).kind = .float ∧ Clear (.rkins 8 1 2 0) s ∧
    (readV .va 1 s).tag = 1 ∧ (readV .va 2 s).tag = 0 ∧ (accAt s 8).vt = false ∧ Clear (.rkacc 8 9 3) s ∧ Clear (.rkth 16 8) s ∧ Clear (.rklen 3 8) s ∧
    Clear (.rkrel 9) s ∧ Clear (.rkacc 9 8 0) s ∧ goodAcc (accAt s 8) := by
  refine ⟨fun p => by simp; tauto, ?_⟩
  simp only [clear_iff, goodAcc]; (repeat' apply And.intro) <;> decide +kernel
/-- ListImagesAreStoredAndMerged: an image of 32 rows at the window's end; the header's read; the header and the image read; a bad magic and a good image. -/
theorem test_witness_list_images : let s := ctx (fun c => tiled fpTile .ranked .float (regs 0x3FFEF0 0 0 c))
    let img := toBytes 1 1 ++ toBytes 1 0 ++ toBytes 1 32 ++ toBytes 1 0 ++ toBytes 4 272 ++ toBytes 8 0 ++
      (List.range 32).flatMap (fun i => toBytes 2 i ++ toBytes 2 0 ++ toBytes 4 0)
    let p := homeSpan s 0x3FFEF0 272
    let t (ph : Nat) (bs : List Byte) := answering ph bs s
    Clear (.rkst 8 1 0) s ∧ (accAt s 8).kind = .ranked ∧ s.memOk = true ∧ img.length = 272 ∧ 0x3FFEF0 + 272 ≤ 0x400000 ∧ 0x3FFEF0 % 16 = 0 ∧ p.inMemory s ∧
    mayGo false false false 0x3FFEF0 [p] (.store img) s ∧ Clear (.rkld 8 1) s ∧ xlate 0x3FFEF0 16 .read 16 s = .ok (homeSpan s 0x3FFEF0 16) ∧
    Reachable [homeSpan s 0x3FFEF0 16] 0x3FFEF0 .load s ∧ Clear (.rkmerge 8 1) s ∧ s.core.act.wait = .none ∧
    Clear (.rkld 8 1) (t 0 (img.take 16)) ∧ answer (t 0 (img.take 16)) (fun x => decide (x.data.length = 16)) ∧
    answer (t 1 img) (fun x => decide (imageFaults x.data (some (accAt s 8)) = [])) ∧ Clear (.rkmerge 8 1) (t 1 img) ∧
    answer (t 1 (toBytes 16 0)) (fun x => decide (imageFaults x.data none ≠ [])) := by
  simp only [clear_iff, Reachable, mayGo, Piece.inMemory]; (repeat' apply And.intro) <;> decide +kernel
/-- CopiesAreStaged: the highest and a too high dimension, tags 12 and 13, a watermark at the window's end and a bad one, bindings. -/
theorem test_witness_staging : let s := ctx (regs 1048576 0x3FFFF0 0x400000)
    let t := ctx (regs 0 0x10001 8)
    Clear (.cdim .c0 0 1 0) s ∧ Clear (.cdim .c1 5 2 0) t ∧ (65535 : Nat) < 0x10001 ∧ Clear (.cset .c1 12 1 2 1) s ∧ Clear (.cset .c0 13 1 2 0) s ∧
    Clear (.clab .c0 0xFF) s ∧ Clear (.cwm .c0 3 2 3) s ∧ (readS 2 s).toNat < (readS 3 s).toNat ∧ (readS 3 s).toNat ≤ 0x400000 ∧ (readS 2 s).toNat % 16 = 0 ∧
    Clear (.cwm .c1 0 2 1) t ∧ Clear (.cwmOff .c1 3) s ∧ Clear (.csync .c0 1 1) t ∧ readS 1 t = 0 ∧ Clear (.csync .c0 1 2) s ∧
    xlate 0x3FFFF0 16 .write 1 s = .ok (homeSpan s 0x3FFFF0 16) ∧ Clear (.csyncBs .c1 0 3) t ∧ xlate 8 16 .write 1 t = .ok (homeSpan t 8 16) := by
  simp only [clear_iff]; (repeat' apply And.intro) <;> decide +kernel
/-- CopiesAndStreamsAreQueued: a full and an empty buffer; a stream to a good slice on an open handle, on one with four, and on a free one. -/
theorem test_witness_queues : let s := ctx (fun c => { regs 0 16 8 c with
      staging0 := { c.staging0 with dst := 0x400000 }, ranges := [⟨true, true, true, true, 0, 0x400000, false, 0x800000, 0x1000000000⟩]
      handles := [{ Handle.free with st := .opened, far := 1 }] ++ List.replicate 7 Handle.free })
    let m : Stream := ⟨0, 0, 16, .none, .c0, 0, false, .core, 0, 0, 0, 0⟩
    let t := modAct (fun c => { c with handles := [{ Handle.free with st := .opened, far := 1, streams := List.replicate 4 m }] ++ List.replicate 7 Handle.free }) s
    let f := buffered .c1 (List.replicate 32 (snapshot .c1 0 false false 1 7 zero)) zero
    let g := buffered .c1 [snapshot .c1 0 false false 1 5 zero, snapshot .c1 0 false false 1 7 zero] (ctx (regs 5 0 0))
    Clear (.cpy .c1 0 1 3 1 5) f ∧ 32 ≤ (engineOf .c1 f).buffer.length ∧ Clear (.cpy .c1 1 1 3 1 5) g ∧ (engineOf .c1 g).buffer.map Command.tick = [5] ++ [7] ∧
    g.lcn < Config.numCores ∧ Clear (.ccan .c1 0) g ∧ Clear (.ccanAll .c1 0) g ∧ Clear (.cqry .c1 3 0 4) g ∧
    Clear (.csend .c0 1 0 1 2 4) s ∧ xlate 0x400000 16 .write 1 s = .ok ⟨0x1000400000, 16, 0⟩ ∧ inSlice s 1 0x1000400000 16 = true ∧
    (s.core.act.handles.getD 0 Handle.free).st = .opened ∧ Clear (.csend .c0 1 0 1 2 4) t ∧ 4 ≤ (t.core.act.handles.getD 0 Handle.free).streams.length ∧
    Clear (.csend .c0 1 0 1 3 4) s ∧ xlate 0x400000 8 .write 1 s = .ok ⟨0x1000400000, 8, 0⟩ ∧ 8 % 16 ≠ 0 := by
  simp only [clear_iff]; (repeat' apply And.intro) <;> decide +kernel

/-- EncodingsAndDecodingsAgree: a word and its operation; a unit that no slot has. -/
theorem test_witness_encodings : encodeSlot ⟨false, .addi 3 1 0x1E8⟩ = some 0x00A183E8 ∧ decodeSlot 0x90020310 = .ok ⟨true, .vadd .va 4 1 34 0⟩ ∧
    Instr.isSlot .balanceSample = false ∧ 6 ≤ slotUnit 0x60000000 := by
  decide
/-- Core 0 runs a task and is at slot `k` of a bundle of given words at address 0. -/
def at_ (issued : Bool) (k : Nat) (w0 w1 : W32) : State :=
  modCore (fun d => { d with imem := [(0, joinBundle w0 w1 0 0)], slot := { d.slot with issued := issued, k := k }, act := { d.act with
    task := some (someTask 5 (List.replicate 64 0)), sreg := List.replicate 16 0 } }) { zero with agenda := [] }
/-- AStepExecutesTheDecodedInstruction: an ADDI, a slot disabled by its extension, a NOP, words with a reserved bit and without a row, a happening that is
due and the turn of a core that issues. -/
theorem test_witness_step : let s := at_ true 0 0x00A183E8 0
    let d := at_ true 1 0x70000010 0x00A183E8
    let n := at_ true 0 0 0
    let r := at_ true 0 (3 * 2 ^ 21 + 1) 0
    let x := at_ true 0 (0x17 * 2 ^ 21) 0
    let u := at_ false 0 0x00A183E8 0
    let y : Slot := ⟨false, .addi 3 1 0x1E8⟩
    (midBundle s = true ∧ decodeSlot (wordAt s) = .ok y ∧ isNop y.op = false ∧ inTurn y s ∧ guardArrived s ∧ guardOn (extAt s) (begun s) = true ∧
      repeatRange (fetchBundle s.core) (begun s) = false) ∧
    (midBundle d = true ∧ decodeSlot (wordAt d) = .ok y ∧ inTurn y d ∧ guardArrived d ∧ guardOn (extAt d) (begun d) = false ∧
      slotFault y.op (begun d) = none) ∧
    (midBundle n = true ∧ decodeSlot (wordAt n) = .ok ⟨false, .nop 0⟩ ∧ inTurn ⟨false, .nop 0⟩ n) ∧
    (midBundle r = true ∧ decodeSlot (wordAt r) = .error .reserved ∧ repeatSkips (begun r).core.act (fetchBundle r.core) (wordAt r) = false ∧ groupTooLong (fetchBundle r.core) (begun r) = false) ∧
    (midBundle x = true ∧ decodeSlot (wordAt x) = .error .unassigned) ∧
    (midBundle zero = false ∧ choose zero = .event 1290240 .balanceSample ∧ heldBack zero .balanceSample = false) ∧
    (midBundle u = false ∧ choose u = .turn 0 0 ∧ u.core.act.results = [] ∧ u.core.swapReq = none ∧ u.core.act.drain = false ∧
      lineUnfilled u.core = false ∧ bundleFault (fetchBundle u.core) = none ∧ bundleReady (fetchBundle u.core) u.core.act.slotres u = true ∧
      energyStalls (bundleWeight u.core.act (fetchBundle u.core)) u = false ∧
      ∃ v, step (issue (fetchBundle u.core) u) = .next v ∧ v.core.slot.ended = .committed) := by
  simp only [inTurn, guardArrived]; (repeat' apply And.intro)
  rotate_right
  · exact ⟨_, rfl, by decide +kernel⟩
  all_goals decide +kernel
/-- DecodeExampleWords: ADDI s4, zero, 11 with G has a word. -/
theorem test_witness_place : encodeSlot ⟨true, .addi 4 32 11⟩ = some 0x80A2400B := by decide +kernel
/-- AStepExecutesTheDecodedInstruction: an iteration that takes va15 past v15, and slot 1 of a header bundle in a group open for eight bundles. -/
theorem test_witness_step_traps : let v := (encodeSlot ⟨false, .vadd .va 15 1 2 0⟩).getD 0
    let p := modAct (fun c => { c.putStw 16 16 2 with rep := some ⟨0, 3, false⟩ }) (at_ true 0 v 0)
    let h := modAct (fun c => { c with group := { c.group with isOpen := true, bundles := 8 } }) (at_ true 1 0x70000000 0x00A183E8)
    (midBundle p = true ∧ decodeSlot (wordAt p) = .ok ⟨false, .vadd .va 15 1 2 0⟩ ∧ inTurn ⟨false, .vadd .va 15 1 2 0⟩ p ∧ guardArrived p ∧
      guardOn (extAt p) (begun p) = true ∧ faultAt ⟨false, .vadd .va 15 1 2 0⟩ p = none ∧ repeatRange (fetchBundle p.core) (begun p) = true) ∧
    (midBundle h = true ∧ groupTooLong (fetchBundle h.core) (begun h) = true ∧ (begun h).core.slot.hdr = true) := by
  simp only [inTurn, guardArrived]; (repeat' apply And.intro) <;> decide +kernel
/-- EncodingCausesAreTakenLowestFirst: a reserved field, XB without a use, a specifier, a group's destination read, a privileged operation at task
privilege; a source that is not ready, and an operand with a bit that must be zero. -/
theorem test_witness_encoding_causes : let x := modSlot (fun k => { k with hdr := true, xb := 1 }) zero
    let g := ctx (fun c => { c with group := { c.group with isOpen := true, dests := [.s 1] } })
    let t := ctx (fun c => { c with stw := 0xC0 })
    let b := ctx (fun c => { c with results := [⟨0, .named (.s 1), some 9, 0, false⟩] })
    (Instr.cqry .c0 3 0 5).fieldsOk = false ∧ (Instr.add 3 1 2).fieldsOk = true ∧ xbReserved x.core.slot (.add 3 1 2) = false ∧ xbUse (.add 3 1 2) = .none ∧
    x.core.slot.xb ≠ 0 ∧ valueBad (.add 3 1 2) x = false ∧ (slotFault (.add 17 1 2) zero).isSome ∧ (slotFault (.add 3 1 2) g).map Prod.fst = some 0x0B ∧
    (Instr.eret).wellFormed t.core.slot = true ∧ t.core.act.group.dests = [] ∧ t.core.act.priv = false ∧ privileged t.core.slot .eret = true ∧
    (slotFault .eret t).map Prod.fst = some 0x0D ∧ (Instr.add 3 1 2).wellFormed b.core.slot = true ∧
    (∀ o ∈ operands b.core.slot (.add 3 1 2), ∀ r ∈ o.reads, r ∉ b.core.act.group.dests) ∧ privileged b.core.slot (.add 3 1 2) = false ∧ ready (.add 3 1 2) b = false ∧
    (Instr.cstat 3 1).wellFormed zero.core.slot = true ∧ valueBad (.cstat 3 1) (ctx (regs 8 0 0)) = true ∧ ready (.cstat 3 1) (ctx (regs 8 0 0)) = true := by
  (repeat' apply And.intro) <;> decide +kernel

/-- A waiting entry of task `t` in a band. -/
def entry (t b : Nat) : Entry := ⟨{ someTask t (List.replicate 64 0) with quad := 287 }, b, 0, 0, none, false⟩
/-- One kiosk besides those at reset. -/
def kiosk (q : Nat) (f : Kiosk → Kiosk) : State := { zero with kiosks := [(q, f Kiosk.reset)] }
/-- At tick `t`. -/
def atTick (t : Nat) (s : State) : State := { s with time := t * 315 }

/-- KiosksAcceptSelectAndAge: the last quad's kiosk takes a descriptor; a bad one of the host; a KPORT write with and without entries before it; paused and
running selection, also with an entry for the next core; an entry overdue by one tick, on its last tick, and in band 3. -/
theorem test_witness_kiosks : let bs : List Byte := List.replicate 64 0
    let a := doing (.taskAcceptance 287 (.core 0 0) bs) zero
    let h := doing (.taskAcceptance 287 (.host 0) bs) zero
    let k := doing (.kportWrite 287 bs) zero
    let w := { k with ingress := [(7, ⟨[⟨0, [], [], 0, none, 0⟩], [], 0⟩)] }
    let sel := doing (.kioskSelect 287) (kiosk 287 (fun k => { k with bands := [[entry 5 0], [], [], []] }))
    let old := doing (.entryAging 287 5) (atTick (2 ^ 20 + 1) (kiosk 287 (fun k => { k with bands := [[entry 5 0], [], [], []] })))
    (performing (.taskAcceptance 287 (.core 0 0) bs) a ∧ a.core.preloads = [] ∧ a.others = [] ∧ earlierAccept a 287 (sourceRank (.core 0 0)) = none ∧
      refusedAt a (.core 0 0) bs = none ∧ (kioskAt a 287).bands.length = 4 ∧ (kioskAt a 287).used (parseDescriptor bs).band < 256) ∧
    (performing (.taskAcceptance 287 (.host 0) bs) h ∧ earlierAccept h 287 (sourceRank (.host 0)) = none ∧ descriptorBad h bs = some 0x3C) ∧
    (performing (.kportWrite 287 bs) k ∧ (ingressAt k (287 / 36)).entries = [] ∧ homeKiosk 287 (parseDescriptor bs) < 288 ∧ (ingressAt w (287 / 36)).entries ≠ []) ∧
    (performing (.kioskSelect 287) sel ∧ dispatchPaused sel = false ∧ dispatchPaused { sel with handover := { sel.handover with frozen := true, role := 1 } } = true ∧
      (kioskAt sel 287).rr = 3 ∧ (coreAt sel (287 * 4)).shadow = .free ∧ available sel (287 * 4) = true ∧ (entry 5 0).admits sel 287 (287 * 4) = true ∧
      [3, 2, 1, 0].flatMap (fun b => (kioskAt sel 287).band b) = [entry 5 0]) ∧
    (performing (.entryAging 287 5) old ∧ (kioskAt old 287).waitingEntry 5 = some (entry 5 0) ∧ overdue old (entry 5 0) ∧
      ¬overdue (atTick (2 ^ 20) old) (entry 5 0) ∧ ¬overdue old (entry 5 3)) := by
  simp only [performing, overdue]; (repeat' apply And.intro) <;> decide +kernel
/-- KiosksBalanceAndObeyTheRuntime: a sample and a decision without an entry, a decision that moves 12 - 0 over a threshold of 8, an arrival, and the
actions on a task that is overrun, active, waiting or nowhere. -/
theorem test_witness_balance : let z := kiosk 287 id
    let d := doing .balanceDecide (kiosk 287 (fun k => { k with samples := [12, 0, 0, 0] }))
    let o := kiosk 287 (fun k => { k with overrun := [entry 5 3] })
    let r := { ctx (fun c => { c with task := some (entry 5 0).task }) with lcn := 1151 }
    let w := kiosk 287 (fun k => { k with bands := [[entry 5 0], [], [], []] })
    (performing .balanceSample (doing .balanceSample z) ∧ (∀ k ∈ z.kiosks, ∀ b ∈ k.2.bands, ∀ e ∈ b, ¬overdue z e)) ∧
    (performing .balanceDecide d ∧ d.kiosks.length = 1 ∧ sampled d 287 0 = some 12 ∧ (shallowest d 287 0).any (fun y => y.1 != 287 && y.2 == 0 && (sends d 35 y.1 0).1 == 0) ∧
      balanceThreshold d 287 = 8 ∧ (∀ c < 4, c ≠ 0 → sampled d 287 c = some 0)) ∧
    (performing (.balanceArrival 287) (doing (.balanceArrival 287) z) ∧ (kioskAt z 287).bands.length = 4) ∧
    ((kioskAt o 287).overrunEntry 5 = some (entry 5 3) ∧ (kioskAt o 287).bands.length = 4 ∧ (kioskAt z 287).overrunEntry 5 = none) ∧
    ((kioskAt r 287).waitingEntry 5 = none ∧ (kioskAt r 287).overrunEntry 5 = none ∧ ((allCores r).find? (fun d => d.2.act.heldBy 287 5)).map Prod.fst = some 1151 ∧
      r.core.act.ending = none ∧ r.core.swapReq ≠ some .exited) ∧
    ((kioskAt w 287).waitingEntry 5 = some (entry 5 0) ∧ (entry 5 0).saved = none) ∧
    (∀ d ∈ allCores z, d.2.act.heldBy 287 5 = false ∧ (d.2.shadow = .free ∨ d.2.shd.heldBy 287 5 = false)) := by
  simp only [performing, overdue]; (repeat' apply And.intro) <;> decide +kernel
/-- KiosksBalanceAndObeyTheRuntime: a decision where no sample exceeds another. -/
theorem test_witness_no_move (b v : Nat) (y : Nat × Nat) : let s := kiosk 0 id
    sampled s 0 b = some v → shallowest s 0 b = some y → v ≤ y.2 + balanceThreshold s 0 := by
  intro s h _
  have h : (if balances s 0 then (kioskAt s 0).samples[b]? else none) = some v := h
  rcases b with _ | _ | _ | _ | b <;> simp [s, kiosk, kioskAt, Kiosk.reset, assocGet] at h <;> omega

/-- Core 1151 runs a task 5 that satisfies `f`. -/
def lastCore (f : Task → Task) (g : Context → Context) : State := { ctx (fun c => g { c with task := some (f (entry 5 0).task) }) with lcn := 1151 }
/-- The task's join word is at an address of its home window, or its preload list. -/
def joins (a : W64) (t : Task) : Task := { t with desc := { t.desc with joinp := a } }
/-- An ending under way. -/
def endingNow (c : Context) : Context := { c with ending := some ⟨0x61, 0, 0, false, false, 0⟩ }

/-- TasksEndAndJoin: a join word at the window's end and a misaligned one; an ended task with an access in flight and without; an exhausted budget with and without
a save slot, and a budget of one tick; a lost context before and after its second run; the earlier of two deferred traps, before a bundle
has issued and where its first slot waits. -/
theorem test_witness_joins : let s := lastCore (joins 0x3FFFF0) id
    let p := homeSpan s 0x3FFFF0 16
    let m := lastCore (joins 0x11) id
    let e := lastCore (joins 0x3FFFF0) endingNow
    let b := lastCore (fun t => { t with budget := 0, slot := some (287, 0) }) id
    let d := lastCore id (fun c => { c with deferred := [⟨0x6B, 0, 7, 0⟩, ⟨0x46, 0, 7, 0⟩, ⟨0x42, 0, 9, 0⟩] })
    ((ctxOf s 5).isSome ∧ s.core.act.task.isSome ∧ translate s 1151 (s.core.act.putStw 2 1 0) 0x3FFFF0 16 .atomic 16 = .ok p ∧ pkgOf p.pa = pkgId s ∧
      memStop s .retire [p] 0x3FFFF0 = none ∧ (readLocal s p.key (localOf p.pa) 16).length = 16) ∧
    ((ctxOf m 5).isSome ∧ translate m 1151 (m.core.act.putStw 2 1 0) 0x11 16 .atomic 16 = .fail 0x67 0x11) ∧
    (endDrained (answering 0 [] s) 1151 5 = true ∧ endDrained { answering 0 [] s with accesses := (answering 0 [] s).accesses.map (fun a => { a with performed := false }) } 1151 5 = false ∧
      endDrained e 1151 5 = true ∧ (coreAt e 1151).act.isTask 5 = true ∧ (coreAt e 1151).act.ending.isSome = true) ∧
    ((coreAt b 1151).act.remaining (b.time / 315) = 0 ∧ (coreAt b 1151).act.ending = none ∧ (coreAt b 1151).swapReq = none ∧
      b.core.act.task.any (hasSlot b) = true ∧ (lastCore (fun t => { t with budget := 0 }) id).core.act.task.any (hasSlot zero) = false ∧
      0 < (coreAt (lastCore (fun t => { t with budget := 1 }) id) 1151).act.remaining 0) ∧
    ((coreAt s 1151).act.task.map Task.rerun = some false ∧ (coreAt s 1151).shadow = .free ∧ available s 1151 = true ∧
      (coreAt (lastCore (fun t => { t with rerun := true }) id) 1151).act.task.map Task.rerun = some true) ∧
    earliest ⟨0x46, 0, 7, 0⟩ (coreAt d 1151).act.deferred ∧
    (∀ x ∈ [d, modSlot (fun x => { x with issued := true, ended := .stalled }) d], dueResult x.core = none ∧ dueCompletion x.core = none ∧
      swapBegins x.core = false ∧ x.core.act.deferred ≠ [] ∧ (x.core.slot.issued = false ∨ waitsAtFirst x.core)) := by
  simp only [earliest]; (repeat' apply And.intro) <;> decide +kernel
/-- ContextsEnterLeaveAndMove: a task without a list and one whose list is bad; no item left; a blocked item that must wait and one that need not; a yield with
and without a loaded bank; a departed context; a migration to the core's neighbour with and without room. -/
theorem test_witness_contexts : let p (i : Nat) (b : Bool) : Preload := ⟨entry 5 0, i, 0, 0, b⟩
    let s := { zero with lcn := 1151, core := { zero.core with preloads := [p 1 false] } }
    let q : Preload := ⟨{ entry 5 0 with task := { (entry 5 0).task with desc := { (entry 5 0).task.desc with plist := 0x40 } } }, 1, 0, 0, false⟩
    let l := { zero with lcn := 1151, core := { zero.core with preloads := [q], shd := { zero.core.shd with task := some q.entry.task } }
                         mem := [(sliceBase (cidOf 1151) + 0x4F, 1)] }
    let w := modCore (fun d => { d with preloads := [p 2 true] }) (lastCore id id)
    let y := modCore (fun d => { d with swapReq := some (.yielded 0) }) (lastCore (fun t => { t with slot := some (287, 0) }) id)
    let f := setReg (0x1000050 + 287 * 0x1000) 0x10000000000 (modCore (fun d => { d with shadow := .spilling (.yielded 0) true, shd := { d.shd with
      task := some { (entry 5 0).task with slot := some (287, 0) } } }) { zero with lcn := 1151 })
    let g := modCore (fun d => { d with swapReq := some (.migrated 1150) }) (lastCore id id)
    ((coreAt s 1151).preloads = [p 1 false] ∧ (entry 5 0).saved = none ∧ (entry 5 0).task.desc.plist = 0 ∧ (entry 5 0).task.desc.args.length = 4) ∧
    ((coreAt l 1151).preloads = [q] ∧ (match fetchVia l 1151 (taskView l q.entry.task) 0x40 128 64 with | .bytes bs _ => listBad bs == some 0x0F | _ => false) = true ∧
      (coreAt l 1151).shd.task = some q.entry.task) ∧
    (∀ p ∈ (coreAt zero 0).preloads, 5 ≤ p.item) ∧
    ((p 2 true).mustWait (coreAt w 1151) = false ∧ (p 2 true).mustWait { (coreAt w 1151) with act := { w.core.act with task := some (someTask 6 []) } } = true) ∧
    (mayLeaveBank y 1151 ∧ (coreAt y 1151).preloads = [] ∧ y.time ≤ (coreAt y 1151).time ∧ mayLeaveBank (modCore (fun d => { d with shadow := .loaded }) y) 1151 ∧
      (SwapReason.yielded 0).saves = true ∧ (coreAt y 1151).leaving = .no ∧ (coreAt y 1151).act.ending = none ∧
      (coreAt (modCore (fun d => { d with leaving := .swap 0 }) y) 1151).leaving = .swap 0 ∧ (0 : Nat) ≤ y.time ∧ (coreAt y 1151).shadow = .free) ∧
    (let sp (s : State) : Bool := rowTested s (sliceBase (cidOf 1151) + 0x8000) 64;
      sp f = false ∧ sp { f with health := ⟨[(.bank 1151 3, 1)], [], []⟩ } = true) ∧
    (spillReady f (coreAt f 1151) = true ∧ rowTested f (sliceBase (cidOf 1151) + (entry 5 0).task.plist.fplo)
      ((entry 5 0).task.plist.fphi - (entry 5 0).task.plist.fplo) = false ∧ (coreAt f 1151).shd.task.any (slotWritable f) = true ∧ (kioskAt f 287).bands.length = 4 ∧
      slotWritable f (entry 5 0).task = false ∧
      spillReady { answering 0 [] f with accesses := [{ mkAccess f 0 false false 0 [] .load .none 0 with taskid := 5 }] } (coreAt f 1151) = false) ∧
    (1150 / 144 = 1151 / 144 ∧ (coreAt g 1151).act.ending = none ∧ targetFree g 1150 = true ∧ remapsTaken g < 64 ∧ (coreAt g 1151).swapReq = some (.migrated 1150) ∧
      (coreAt g 1151).act.group.isOpen = false ∧ moveReady (coreAt g 1151) = true ∧ targetFree { g with remaps := [⟨1150, 3, 9⟩] } 1150 = false ∧
      (coreAt (lastCore id id) 1151).swapReq = none ∧ (coreAt g 1151).leaving = .no ∧
      moveReady (coreAt (modCore (fun d => { d with leaving := .settling 0 }) g) 1151) = true ∧
      (coreAt (modCore (fun d => { d with leaving := .copying }) g) 1151).leaving = .copying) := by
  simp only [mayLeaveBank]; (repeat' apply And.intro) <;> decide +kernel
/-- ResultsBundlesAndBarriersGoOn: a matrix instruction under way; a UNIT of 6, a header in slot 1, two slots of one unit; a release of one generation; BARCFG. -/
theorem test_witness_results : let s := lastCore id (fun c => { c with completions := [⟨9, none, 2, 2, 0, 3, 0, 1, 4, [], none⟩] })
    let b := { zero with barriers := [⟨.quad, 0, 15, 0, 0, 1, 0, 0, 0⟩] }
    let f : State := { zero with barriers := [⟨.quad, 287, 15, 1, 0, 0, 0, 1, 0⟩] }
    let i := cor (fun d => { d with imem := [(0, joinBundle 0 0x60000000 0 0)] })
    performing (.matrixComplete 1151 9) (doing (.matrixComplete 1151 9) s) ∧ ((coreAt s 1151).act.completions.find? (fun x => x.mid == 9)).isSome ∧
    (∀ x ∈ (coreAt s 1151).act.completions, x.mid ≠ 8) ∧ (bundleFault (fetchBundle i.core)).isSome ∧ lowestUnit (joinBundle 0 0x60000000 0 0x60000001) 0 6 0x60000000 ∧
    lowestUnit (joinBundle 0x70000000 0x70000001 0 0) 1 7 0x70000001 ∧ (∀ k < 4, slotUnit (slotWord (joinBundle 0x70000000 0x70000001 0 0) k) ≠ 6) ∧
    slotUnit (slotWord (joinBundle 0x10000000 0 0x10000001 0) 0) = slotUnit (slotWord (joinBundle 0x10000000 0 0x10000001 0) 2) ∧
    ((barrierAt f .quad 287 15).tick = tickNow f ∧ (barrierAt f .quad 287 15).fresh = 1 ∧ (1 : Nat) < (2 ^ 35 + 5 : W64).toNat % 2 ^ 21) ∧
    (barrierAt b .quad 0 15).releasing ≠ 0 ∧ (barrierAt b .quad 0 15).id = 15 ∧ (barrierAt b .die 0 3).releasing = 0 ∧ (barrierAt b .die 0 3).id = 3 ∧
    performing (.barcfgWrite (0x1000100 + 287 * 0x1000 + 8 * 15) 0) (doing (.barcfgWrite (0x1000100 + 287 * 0x1000 + 8 * 15) 0) zero) := by
  simp only [performing, lowestUnit]; (repeat' apply And.intro) <;> decide +kernel

/-- PowerFollowsItsLimits: rails that settle now and later; a transition that ends now, with and without a held request, and one that goes on; a grant and a
refusal; a lease with a tick left, at its end and at OP7; OPLIM at 0 and above; a newer message half the range ahead, a repeated one; a hold. -/
theorem test_witness_limits : let s := lastCore (fun t => { t with lease := 1 }) id
    let m (k : Nat) (f : Core → Core) := modCore (fun d => f { d with opMove := some ⟨k, 0⟩ }) s
    let l := { s with leaseAsk := some ⟨cidOf 1151, 7⟩ }
    let t := modCore (fun d => { d with op := 7, act := { d.act with runFrom := some 0 } }) s
    let z := modCore (fun d => { d with throttled := true }) (setReg (pwrctlOf 1151) 0 s)
    let r := { zero with rack := { zero.rack with deadline := some 9 } }
    (s.time < (coreAt (modCore (fun d => { d with railEnds := 1 }) s) 1151).railEnds ∧ (coreAt s 1151).railEnds ≤ s.time) ∧
    ((coreAt (m 7 id) 1151).opMove = some ⟨7, 0⟩ ∧ (coreAt (m 7 id) 1151).opHeld = none ∧ (coreAt (m 7 id) 1151).act.task.isSome = true ∧
      (coreAt (m 7 (fun d => { d with opHeld := some 6, act := { d.act with task := none } })) 1151).act.task = none ∧ 6 ≤ regRaw s (pwrctlOf 1151) / 2 ^ 10 % 8 ∧
      (coreAt s 1151).opMove = none ∧ (coreAt (modCore (fun d => { d with opMove := some ⟨7, 1⟩ }) s) 1151).opMove = some ⟨7, s.time + 1⟩) ∧
    ((coreAt s 1151).op = 6 ∧ (coreAt s 1151).opMove = none) ∧
    (l.leaseAsk.isSome ∧ populated (cidOf 1151) = true ∧ (coreAt l (lcnOf (cidOf 1151))).act.task.isSome = true ∧ 0 < min 7 7) ∧
    ((coreAt s 1151).act.psub = List.replicate 8 none ∧ 0 < (coreAt s 1151).act.leaseLeft (s.time / 315) ∧ (coreAt t 1151).act.leaseLeft 1 = 0 ∧
      (coreAt (atTick 1 t) 1151).op = 7 ∧ (coreAt t 1151).act.leased = true ∧ (coreAt t 1151).act.isTask 5 = true ∧ (coreAt zero 1151).act.leased = false) ∧
    (regRaw z (pwrctlOf 1151) / 2 ^ 10 % 8 = 0 ∧ (coreAt z 1151).throttled = true ∧ (coreAt (modCore (fun d => { d with throttled := true }) s) 1151).throttled = true ∧
      0 < regRaw s (pwrctlOf 1151) / 2 ^ 10 % 8 ∧ (coreAt (setReg (pwrctlOf 1151) 0 s) 1151).throttled = false) ∧
    (ahead zero (BitVec.ofNat 64 ((2 ^ 31 - 1) * 2 ^ 32)) = 2 ^ 31 - 1 ∧ ahead zero 0 = 0 ∧ r.rack.deadline = some 9) ∧
    fires ⟨0x830, 5, false, 0, true⟩ 5 ∧ ¬fires ⟨0x830, 5, true, 0, true⟩ 5 := by
  simp only [fires]; (repeat' apply And.intro) <;> decide +kernel
/-- HostAccessesPassTheIngress: the last 64 bytes of the last slice; DRAM and a hole; entries unclaimed and claimed; heads aged by AGE; requests aged by AGE; DRAIN. -/
theorem test_witness_host : let a := sliceBase (cidOf 1151) + 0x3FFFC0
    let e (c : Option Nat) : HostEntry := ⟨a, List.replicate 64 1, List.replicate 64 true, 0, c, 0⟩
    let s (c : Option Nat) : State := { zero with ingress := [(7, ⟨[e c], [], 0⟩)] }
    let w : State := { setReg 0x2007200 5 zero with ingress := [(7, ⟨[], [⟨3, a, 64, none, [], 1, 0⟩], 0⟩)], time := 5 * 315 }
    Claims.inSlice zero (localOf a) 64 ∧ dieOfSlice (localOf a) = 7 ∧ (ingressAt zero 7).entries.length < 4096 ∧ regionOf (localOf 0x4000000000) = .dram ∧
    regionOf (localOf 0x10000000000) = .lpddr ∧ regionOf (localOf 0x2000000000) = .hole ∧
    ((ingressAt (s none) 7).entries = [e none] ∧ (ingressAt (s (some 3)) 7).entries = [e (some 3)] ∧ (ingressAt (s (some 3)) 7).waiting = [] ∧
      (rowTested (s (some 3)) (localOf a) 64 = false ∧
        rowTested { s (some 3) with health := ⟨[(.bank 1151 31, 127)], [], []⟩ } (localOf a) 64 = true) ∧
      regionOf (localOf (e none).addr) = .slice ∧ localOf a % 64 + 64 ≤ 64 ∧ (e none).enables.length = (e none).bytes.length) ∧
    (ingressAt zero 7).entries = [] ∧ (ingressAt (s none) (dieOfSlice (localOf a))).entries ≠ [] ∧
    (regRaw (s none) (0x2000200 + 7 * 0x1000) / 2 ^ 32 % 2 = 1 ∧
      max (e none).tick (ingressAt (s none) 7).lastClaim + regRaw (s none) (0x2000200 + 7 * 0x1000) % 2 ^ 32 ≤ 1200000) ∧
    (regRaw w (0x2000200 + 7 * 0x1000) / 2 ^ 32 % 2 = 0 ∧ (ingressAt w 7).waiting = [⟨3, a, 64, none, [], 1, 0⟩] ∧
      0 + regRaw w (0x2000200 + 7 * 0x1000) % 2 ^ 32 ≤ w.time / 315) := by
  simp only [Claims.inSlice]; (repeat' apply And.intro) <;> decide +kernel
/-- A host write that waits at the host port for a full buffer. -/
theorem full_port (l : List HostEntry) (h : l.length = 4096) : let a := sliceBase (cidOf 1151) + 0x3FFFC0
    let op : HostOp := .write a (List.replicate 64 1) (List.replicate 64 true) 7
    let f : State := { zero with ingress := [(7, ⟨l, [], 0⟩)], hostPort := [op] }
    4096 ≤ (ingressAt f (dieOfSlice (localOf a))).entries.length ∧ f.hostPort = op :: [] ∧ takeOp op f = (f, some op) := by
  intro a op f
  have d : dieOfSlice (localOf a) = 7 := by decide +kernel
  have b : sliceDie zero (localOf a) = 7 := by decide +kernel
  have g : (pkgOf a == pkgId zero && regionOf (localOf a) == .slice && !hostHole a 1) = true := by decide +kernel
  have w : takeOp op f = hostWrite 65 a (List.replicate 64 1) (List.replicate 64 true) 7 f := rfl
  have u : ingressAt f 7 = ⟨l, [], 0⟩ := rfl
  refine ⟨by rw [d, u]; exact h.ge, rfl, ?_⟩
  rw [w, hostWrite]
  have b' : sliceDie f (localOf a) = 7 := b
  have g' : (pkgOf a == pkgId f && regionOf (localOf a) == .slice && !hostHole a 1) = true := g
  simp only [g', b', u, h, if_true]
  rfl
/-- HostAccessesPassTheIngress: a full buffer and what waits at the host port for it. -/
theorem test_witness_host_full : ∃ (a : Nat) (op : HostOp) (f : State),
    4096 ≤ (ingressAt f (dieOfSlice (localOf a))).entries.length ∧ f.hostPort = op :: [] ∧ takeOp op f = (f, some op) :=
  ⟨_, _, _, full_port (List.replicate 4096 ⟨0, [], [], 0, none, 0⟩) List.length_replicate⟩
/-- HostAccessesPassTheIngress: a DRAM write behind a write that has not performed. -/
theorem test_witness_host_held : let e : HostEntry := ⟨sliceBase (cidOf 1151), List.replicate 64 1, List.replicate 64 true, 0, none, 0⟩
    let g : State := { zero with ingress := [(7, ⟨[e], [], 0⟩)], hostSerial := 1 }
    hostHole 0x4000000000 8 = false ∧ ∃ x ∈ g.ingress, ∃ y ∈ x.2.entries, y.serial < g.hostSerial := by
  decide +kernel
/-- RecordsRegistersAndMemoryHealth: a ring with room and a full one; memory that is tested, with spares and without; a bad unit; a table that drains. -/
theorem test_witness_health : let s := setReg 0x2600800 (0x10000000000 + 6) zero
    let f := setReg 0x2600808 64 s
    let b (n : Nat) : State := { lastCore id id with health := ⟨[(.bank 1151 31, 9)], List.replicate n (.bank 1151 31, 0), [0x4000000040]⟩ }
    let t : State := { zero with tables := { zero.tables with old := some (List.range 32), moving := [0x10000000] } }
    (let r (s : State) : State := { s with reports := [⟨(0, 0), 0, .record { area := 1, event := 0x0101 }⟩] };
      zero.reports = [] ∧ ringRoom (r s) 64 ∧ ¬ringRoom (r f) 64 ∧ (r s).reports ≠ [] ∧ midBundle (r s) = false ∧
      (comesNext (r s)).thisTick (r s) = false ∧ (comesNext zero).thisTick { zero with time := 1290240 } = true) ∧
    (ringRoom s 64 ∧ pkgOf (ringPlace s 64) = pkgId s ∧ regionOf (localOf (ringPlace s 64)) = .lpddr ∧ regionOf (localOf (ringPlace s 64) + 63) = .lpddr ∧ ¬ringRoom f 64 ∧ ¬ringRoom zero 64) ∧
    (placeOk (.bank 1151 31) = true ∧ placeOk (.channel 32) = false) ∧
    ((MemPlace.bank 1151 31, 9) ∈ (b 15).health.testing ∧ (MemPlace.bank 1151 31, 8) ∉ (b 15).health.testing ∧
      ((b 15).health.spared.filter (fun e => e.1 == .bank 1151 31)).length < 16 ∧ 16 ≤ ((b 16).health.spared.filter (fun e => e.1 == .bank 1151 31)).length ∧
      (coreAt (b 16) 1151).act.task.isSome = true) ∧
    (0x100000001 * 64 ∈ (b 0).health.bad ∧ regionOf (0x100000001 * 64) = .dram ∧ 0x100000002 * 64 ∉ (b 0).health.bad ∧
      regionOf (0x100000002 * 64) = .dram ∧ regionOf (0 * 64) = .aperture) ∧
    (zero.tables.old = none ∧ t.tables.old.isSome = true ∧ t.tables.waiting = [] ∧ 0x10000000 ∈ t.tables.moving ∧ (∀ e ∈ t.health.testing, ∀ c, e.1 ≠ .channel c)) := by
  simp only [ringRoom]; (repeat' apply And.intro) <;> first | decide +kernel | (intro e h; cases h)
/-- TheLodgeServesAndHandsOver: interfaces unlocked, locked and running; measurement indices; key slots; images that verify and that do not; the states of a hand-over. -/
theorem test_witness_lodge : let i (st : TdispState) : State := { zero with interfaces := [(63, ⟨st, [0], [1], false, none⟩)] }
    let h (st k : Nat) (w : Bool) : State := { zero with handover := { zero.handover with st := st, role := 1, hbok := k, image := some ⟨true, 1, 2, 0, 9⟩, watchOld := w } }
    let go : W64 := 4 + 1
    let r (w : Option Nat) : State := { zero with interfaces := [(63, ⟨.error, [0], [1], true, w⟩)] }
    ((interfaceAt (i .configUnlocked) 63).st = .configUnlocked ∧ (∀ q ∈ [0, 287], q < 288 ∧ ∀ e ∈ (i .configUnlocked).interfaces, e.1 ≠ 63 → q ∉ e.2.quads) ∧
      (interfaceAt (i .configLocked) 63).st ≠ .configUnlocked ∧ (interfaceAt (i .run) 63).st = .run ∧ (i .run).lcn / 4 ∈ (interfaceAt (i .run) 63).quads ∧
      ({ i .run with lcn := 4 } : State).lcn / 4 ∉ (interfaceAt (i .run) 63).quads ∧ (interfaceAt (i .run) 63).scrubEnds = none ∧
      (interfaceAt (i .error) 63).st = .error ∧ (interfaceAt (i .error) 63).ran = false ∧ (interfaceAt (r none) 63).ran = true ∧
      (interfaceAt (r none) 63).st ≠ .configUnlocked ∧ (interfaceAt (r (some 0)) 63).scrubEnds = some 0 ∧ (0 : Nat) ≤ (r (some 0)).time ∧
      (r (some 9)).time < 9 ∧ (∀ e ∈ (r none).interfaces, e.2.ran = true ∧ interfaceAt (r none) e.1 = e.2)) ∧
    (atTick 1200000 (h 3 0 false)).time / 315 = (h 3 0 false).handover.instant + 1 * 1200000 ∧
    (go.toNat / 4 % 2 = 1 ∧ 1 ≤ (h 3 0 false).handover.st ∧ (h 3 0 false).handover.st ≤ 3 ∧ zero.handover.st = 0 ∧ (⟨true, 1, 2, 0, 9⟩ : FirmwareImage).role = go.toNat % 4) ∧
    (zero.handover.image = none ∧ (h 1 0 false).handover.image.isSome ∧ (h 2 0 false).handover.st = 2 ∧ untold (h 2 0 false) ∧ (h 2 0 false).measurements.length = 6) ∧
    ((h 3 198 false).handover.hbok + 1 = 199 ∧ (h 3 199 false).handover.hbok + 1 = 200 ∧ (h 3 0 false).handover.beat = false ∧ untold (h 3 0 false) ∧
      (h 3 200 false).handover.hbok = 200 ∧ (h 5 0 true).handover.watchOld = true ∧ 1 ≤ (h 5 0 true).handover.role ∧
      ({ h 5 0 true with handover := { (h 5 0 true).handover with role := 0 } } : State).handover.role = 0) := by
  simp only [untold]; (repeat' apply And.intro) <;> decide +kernel

/-- FlowsArePromotedAndLanternsProbe: entry 63 of the last turnstile in each state; a lantern at its first hop with a slot free and with four held, at a trunk
without slots before and after its third backtrack, and answered; a burst behind and at its landing; elements and tables at the ends of their ranges. -/
theorem test_witness_flows : let fid : FlowId := ⟨cidOf 1151, cidOf 0, 255⟩
    let fl (st : FlowState) (n : Nat) : Flow := ⟨fid, n, 64, st, 0, false, 0, 0, 0⟩
    let s (st : FlowState) (n : Nat) : State := { zero with agenda := [], turnstiles := [(287, List.replicate 63 none ++ [some (fl st n)])] }
    let ln (st : LanternState) (p : List (Port × Nat)) (k : Nat) : Lantern := ⟨9, .flow 287 63, 1151, 0, 255, p, 0, k, st, 0⟩
    let with_ (l : Lantern) (t : State) : State := { t with lanterns := [l] }
    let landing (m : Bool) : Landing := ⟨fid, 287, 63, [], m, 0, 0, 0⟩
    let b : Burst := ⟨7, 1151, .c0, 0, 5, 0, 0, 0, 255, .none, [], 0, 0, 64, [], [], 2, some (fid, 64), true, 2, none, ⟨7, 0, 64, 0⟩, true⟩
    let full : State := { s .promoting 1 with held := List.replicate 4 ⟨.tx 1151, .flow 0 0⟩ }
    let bare : State := { s .promoting 1 with regs := [(0x2200100 + 7 * 0x1000, 0)] }
    (entryIs (s .promoting 1) 287 63 (fl .promoting 1) ∧ (s .promoting 1).lanterns = [] ∧ lowerLaunch (s .promoting 1) 287 63 = false ∧
      entryIs (s .counting 0) 287 63 (fl .counting 0) ∧ entryIs (s .promoted 0) 287 63 (fl .promoted 0) ∧ entryIs (s .demoting 0) 287 63 (fl .demoting 0)) ∧
    ((with_ (ln .probe [] 0) (s .promoting 1)).agenda = [] ∧ (∀ x ∈ (s .promoting 1).held, x.port ≠ .tx 1151) ∧ crossWorks (s .promoting 1) 1151 = true ∧
      (full.held.filter (fun x => x.port == .tx 1151)).length = 4 ∧ (ln .probe [(.tx 1151, 0)] 2).path.length = 1 ∧ dieOf 1151 ≠ dieOf 0 ∧ trunkSlots bare 7 0 = 0 ∧
      (ln .ack [] 0).st = .ack) ∧
    ((with_ (ln .probe [] 0) (s .promoting 1)).lanterns.find? (fun x => x.id == 9) = some (ln .probe [] 0)) ∧
    (landingOf { s .promoted 1 with landings := [landing false] } fid = some (landing false) ∧ behindCircuit { s .promoted 1 with bursts := [b] } b = false ∧
      onItsCircuit (s .promoted 1) (landing false) = true ∧ landingOf zero fid = none) ∧
    (entryOf (s .promoted 1) (quadOf (lcnOf fid.src)) fid = some 63 ∧ quadOf (lcnOf fid.src) = 287) ∧
    (circuitBusy (s .demoting 0) fid = false ∧ circuitBusy { s .demoting 0 with bursts := [b] } fid = true) ∧
    ((ln .retry [(.out 7 0 1 3, 0), (.tx 1151, 0)] 1).path = (.out 7 0 1 3, 0) :: [(.tx 1151, 0)] ∧
      0 + 1 < (hopCandidates (s .promoting 1) { ln .retry [] 1 with dst := 1150 - 1150 % 144, path := [(.tx 1151, 0)], cand := 0 }).length ∧
      (ln .retry [(.tx 1151, 0)] 1).path = [(.tx 1151, 0)] ∧ 0 + 1 < 1 + (b.len + 63) / 64 ∧ 1 + (b.len + 63) / 64 ≤ b.beats ∧ b.rel = none ∧
      (0 : Nat) ∉ (glassAt zero 7).deadWaves ∧ (glassAt zero 7).spares = 60 :: [61, 62, 63] ∧ 60 ≠ 0 ∧
      (glassAt { zero with glass := [(7, ⟨[], [], [], [], []⟩)] } 7).spares = []) ∧
    (256 < 255 + 2 ∧ trunkSlots zero 7 7 = 0 ∧ elementCount .trunkSlot ≤ 12 ∧ zero.held = []) := by
  simp only [entryIs]; (repeat' apply And.intro) <;> decide +kernel
/-- A fill command of one row of `n` bytes for task 5. -/
def filling (n tick : Nat) (dst : W64) : Command :=
  ⟨3, 5, true, { Staging.reset with n := n :: List.replicate 5 1, dst := dst, fill := true }, 3, .none, false, false, .core, 0, tick, 0⟩
/-- CopiesAndStreamsMoveBytes: a command whose tick has and has not come; a fill with bytes left to 512, one that must wait for an access before it, one at a bad
address; a burst under way; a complete command and one that is not; a stream with two segments left; a lease that ends. -/
theorem test_witness_copies :
    let g (r : Option Running) (l : List Command) (h : List Handle) : State :=
      modCore (fun d => { d with engine1 := ⟨l, r⟩ }) (lastCore id (fun c => { c with handles := h ++ List.replicate 7 Handle.free }))
    let ru (dst : W64) (i : Bool) (o : Nat) : Running := ⟨filling 1000 0 dst, List.replicate 5 0, 0, i, o, false, 0, none⟩
    let a := g (some (ru 0x100 false 0)) [] []
    let c := (coreAt a 1151).act
    let bst : Burst := ⟨7, 1151, .c1, 3, 5, 0, 0, 0, 0, .none, [], 0, 0, 64, [homeSpan a 0x3FFFC0 64], List.replicate 64 1, 2, none, false, 0, none, ⟨7, 0, 64, 0⟩, true⟩
    let m : Stream := ⟨0, sliceBase (cidOf 1150), 8192, .none, .c0, 0, false, .core, 0, 0, 0, 0⟩
    let v (r : Bool) (n : Nat) : Handle := ⟨.opened, 1150, 0, n, [m], r, false, 1⟩
    let st (r : Bool) := g none [] [v r 1]
    ((coreAt (g none [filling 1 0 0] []) 1151).engine1.buffer = [filling 1 0 0] ∧ (filling 1 0 0).tick * 315 ≤ a.time ∧ a.time < (filling 1 1 0).tick * 315 ∧
      runs a 1151 .c1 (ru 0x100 false 0)) ∧
    (copyOrdered a (ru 0x100 false 0) = true ∧ ctxOf a 5 = some c ∧ (512 : Nat) - 0x100 = min (1000 - 0) (512 - nestAddr 0x100 (List.replicate 5 0) (List.replicate 6 0) 0 % 512) ∧
      (match copyPieces a 1151 (c.putStw 2 1 1) .write (chunks 0x100 256) with | .ok dp => (erasedKey a dp).isNone && !copyStalls a 1151 (c.putStw 2 1 1) (some 7) dp | .error _ => false) = true ∧
      copyOrdered { a with accesses := [{ mkAccess a 0 false false 0 [] .load .none 0 with taskid := 5, lcn := 1151 }] } (ru 0x100 false 0) = false ∧
      (match copyPieces a 1151 (c.putStw 2 1 1) .write (chunks 0x800000 512) with | .ok _ => false | .error x => !([0x6B#8, 0xA0#8, 0xB1#8].contains x.1)) = true ∧ holds a 1151 5) ∧
    ((∀ b ∈ a.bursts, b.id ≠ 7) ∧ (homeSpan a 0x3FFFC0 64).inMemory a ∧ inMotion a (localOf (homeSpan a 0x3FFFC0 64).pa) 64 = false ∧
      partialBad a (localOf (homeSpan a 0x3FFFC0 64).pa) 64 = false ∧ a.memOk = true ∧ regionOf (localOf (homeSpan a 0x3FFFC0 64).pa) = .slice ∧
      pkgOf (homeSpan a 0x3FFFC0 64).pa = pkgId a ∧ bst.bytes.length = 64) ∧
    (runs (g (some (ru 0 true 0)) [] []) 1151 .c1 (ru 0 true 0) ∧ (coreAt (g (some (ru 0 true 0)) [] []) 1151).engine1.buffer = []) ∧
    (holds (st false) 1151 5 ∧ mayStream (st false) 1151 5 0 = true ∧ mayStream (st true) 1151 5 0 = false ∧ m.committed + nextSegment m < m.len ∧
      segmentStop (st true) 1151 (nextSegment m) m = none ∧
      copyStalls (st true) 1151 (coreAt (st true) 1151).act none [⟨pkgId (st true) * 2 ^ 46 + sliceBase (cidOf 1151) + m.src + m.committed, nextSegment m, 0⟩] = false ∧
      regionOf (localOf m.dst + m.committed) = .slice ∧ ((coreAt (st true) 1151).act.handle 0).streams = [m] ∧ ((coreAt a 1151).act.handle 0).streams = []) ∧
    ((st false).time / 315 < ((coreAt (st false) 1151).act.handle 0).lease ∧ ((coreAt (st false) 1151).act.handle 0).lease ≤ (atTick 1 (st false)).time / 315 ∧
      activeOn zero 5 = none) := by
  simp only [runs, holds, Piece.inMemory]; (repeat' apply And.intro) <;> decide +kernel
/-- CopiesAndStreamsMoveBytes: a burst to a core of its die and of another, with its link free and busy, with permits and with none; one route; streams that
are over, with and without a release. -/
theorem test_witness_injection : let p (n : Nat) : Piece := ⟨sliceBase (cidOf n), 64, 0⟩
    let b (n : Nat) : Burst := ⟨7, 0, .c1, 3, 5, 0, 0, 0, 0, .none, [], 0, 0, 64, [p n], List.replicate 64 1, 1, none, false, 0, none, ⟨7, 0, 64, 0⟩, true⟩
    let busy := cor (fun d => { d with linkFree := 315 })
    let full : State := { zero with permits := [(287, [(0, 0), (0, 0), (32, 128), (0, 0), (0, 0)])] }
    let m : Stream := ⟨0, sliceBase (cidOf 1150), 16, .none, .c0, 0, true, .core, 0, 16, 0, 9⟩
    let st (l : List Access) : State := { lastCore id (fun c => { c with handles := ⟨.opened, 1150, 0, 1, [m, m], false, false, 1⟩ :: List.replicate 7 Handle.free }) with
      accesses := l }
    (pkgOf (p 4).pa = pkgId zero ∧ burstCore zero (b 4) = some 4 ∧ burstCore zero (b 1151) = some 1151 ∧ busy.time < (coreAt busy 0).linkFree ∧
      (coreAt zero 0).linkFree ≤ zero.time ∧ grantPermit full (1151 / 4) .data = none ∧ (permitsAt zero (1151 / 4)).length = 5 ∧
      grantPermit zero (1151 / 4) .data = some false ∧ heldOf full 287 2 = (32, 128) ∧ (0 : Nat) + 1 < 1 + ((b 1151).len + 63) / 64 ∧
      1 + ((b 1151).len + 63) / 64 ≤ 1 + 1) ∧
    (mayStream (st []) 1151 5 0 = true ∧ m.len ≤ m.committed ∧ m.rel = true ∧ mayRelease (st []) 5 m.cid (m.scope == .pod) = true ∧
      mayRelease (st [{ mkAccess zero 0 false false 0 [] .load .none 0 with taskid := 5 }]) 5 m.cid (m.scope == .pod) = false) := by
  (repeat' apply And.intro) <;> decide +kernel
/-- AccessesPerformAndAnswer: an access performed, not yet, and held behind an earlier one; a load, a store and a load of lost data in a slice; another package with no
station, with room and without; answers to a register, with a cause; a time-out; requests from another package to a hole and to a slice. -/
theorem test_witness_accesses : let s := lastCore id id
    let p := homeSpan s 0x3FFFC0 8
    let x (i : Nat) (ps : List Piece) (op : AccessOp) (r : AccessReturn) (d : Bool) : Access := { mkAccess s 0 false false 0x3FFFC0 ps op r 9 with id := i, group := i, performed := d }
    let w (l : List Access) : State := { s with accesses := l }
    let far : Piece := ⟨3 * 2 ^ 46, 8, 0⟩
    let dead : State := { w [x 4 [far] .load .waiting false] with links := (List.range 8).map (fun l => (l, { linkAt zero l with inService := false })) }
    let full : State := { w [x 4 [far] .load .waiting false] with peers := [⟨3, 65536, 65536, 0, none, none⟩] }
    let r : State := modAct (fun c => { c with results := [⟨2, .named (.s 15), none, 0, false⟩] }) s
    let lost : State := { w [x 4 [p] .load .waiting false] with health := ⟨[], [], [localOf p.pa]⟩ }
    (accessAt s 4 = none ∧ accessAt (w [x 4 [p] .load .waiting false]) 4 = some (x 4 [p] .load .waiting false) ∧ (x 4 [p] .load .waiting false).pkg = pkgId s ∧
      mayPerform (w [x 4 [p] .load .waiting false]) (holdsOf s 5) (x 4 [p] .load .waiting false) = true ∧ inMotion s (localOf p.pa) 8 = false ∧
      spanBad s (localOf p.pa) 8 = false ∧ partialBad s (localOf p.pa) 8 = false ∧ s.memOk = true ∧ p.inMemory s ∧ spanBad lost (localOf p.pa) 8 = true) ∧
    mayPerform (w [x 3 [p] .load .waiting false, x 4 [p] .load .waiting false]) [] (x 4 [p] .load .waiting false) = false ∧
    ((x 4 [far] .load .waiting false).pkg ≠ pkgId s ∧ mayLeave dead (x 4 [far] .load .waiting false) = true ∧ stationFor dead 3 (3 * 2 ^ 46) = none ∧
      stationFor full 3 (3 * 2 ^ 46) = some 3 ∧ mayLeave full (x 4 [far] .load .waiting false) = true ∧ peerRoom full 3 8 = false ∧ peerRoom s 3 8 = true) ∧
    (x 4 [far] .load .waiting false).pieces ≠ [] ∧
    sole (w [x 4 [p] .load (.scalar 2 8 false) true]) (x 4 [p] .load (.scalar 2 8 false) true) ∧
    (holds r 1151 5 ∧ (coreAt r 1151).act.results.find? (fun x => x.rid == 2) = some ⟨2, .named (.s 15), none, 0, false⟩) ∧
    (regionOf (localOf 0x2000000000) = .hole ∧ regionOf (localOf p.pa) = .slice ∧ regionOf (localOf p.pa + 8 - 1) = .slice) := by
  simp only [holds, sole, Piece.inMemory]; (repeat' apply And.intro) <;> decide +kernel
/-- LinksKeepCapsAndKeys: a link rotating and not, ready before and at 1 ms, at its sixteenth replay; a station with and without a request, a port's request; a network
request of a core with a segment to read, to write, and at a bad address. -/
theorem test_witness_links : let l (f : Link → Link) : State := { lastCore id id with links := [(7, f (linkAt zero 7))] }
    let x : Access := { mkAccess zero 0 false false 0 [⟨3 * 2 ^ 46 + 4 * 4096, 8, 0⟩] .load .waiting 0 with sent := some 0 }
    let q (op port : Nat) (va : W64) : NetRequest := ⟨6, 5, 1151, 0, op, port, 5000, va, 0, 0, 0, 0, 0, 0, 0, 0, 0, 0, 0, 0⟩
    let n (r : NetRequest) : State := { lastCore id id with net1 := ⟨[r], 7, []⟩ }
    ((linkAt (l (fun k => { k with rotating := true, attempts := 3 })) 7).rotating = true ∧ (linkAt zero 15).rotating = false ∧ (linkAt zero 15).inService = true) ∧
    ((linkAt (l (fun k => { k with ready := true })) 7).ready = true ∧ (linkAt zero 7).ready = false ∧ (atTick 1199999 zero).time / 315 < (linkAt zero 7).switched + 1200000 ∧
      (linkAt zero 7).switched + 1200000 ≤ (atTick 1200000 zero).time / 315) ∧
    ((linkAt (l (fun k => { k with replays := 15 })) 7).replays = 15 ∧ (linkAt (l (fun k => { k with inService := false })) 7).inService = false) ∧
    (x.sent.isSome = true ∧ x.answered = false ∧ stationFor zero x.pkg x.pa = some 7) ∧
    (requestAt zero 1 6 = none ∧ requestAt (n (q 0 7 0)) 1 6 = some (q 0 7 0) ∧ q 0 7 0 ∈ (netAt (n (q 0 7 0)) ((15 - 8) / 4)).queue ∧ holds (n (q 0 7 0)) 1151 5 ∧
      min 4096 ((q 0 7 0).len - (q 0 7 0).done) = 4096 ∧ netBehind (n (q 0 7 0)) (q 0 7 0) = false ∧
      netBehind { n { q 0 7 0 with posted := 1 } with net0 := ⟨[q 0 7 0], 7, []⟩ } { q 0 7 0 with posted := 1 } = true ∧
      (match copyPieces (n (q 0 7 0)) 1151 (coreAt (n (q 0 7 0)) 1151).act .read (chunks 0 4096) with
        | .ok ps => ps.all (fun p => !spanBad zero (localOf p.pa) p.len && !partialBad zero (localOf p.pa) p.len) | .error _ => false) = true ∧
      (match copyPieces (n (q 2 7 0)) 1151 (coreAt (n (q 2 7 0)) 1151).act .write (chunks 0 4096) with | .ok _ => true | .error _ => false) = true ∧
      (match copyPieces (n (q 2 7 0)) 1151 (coreAt (n (q 2 7 0)) 1151).act .write (chunks 0x800000 4096) with | .ok _ => false | .error _ => true) = true) := by
  simp only [holds]; (repeat' apply And.intro) <;> decide +kernel

/-! ### Witnesses of further clauses -/

/-- Vector registers va1 and va2 with tag `u` hold these two lanes and zeros above, with the flags `f` enabled. -/
def laned (u : Nat) (f : Nat) (a b c d : W32) (x : Context) : Context :=
  { x.putStw 40 5 f with
    va := [VReg.zero, ⟨a :: b :: List.replicate 62 0, u⟩, ⟨c :: d :: List.replicate 62 0, u⟩] ++ List.replicate 13 VReg.zero }

/-- FlagsTrapWhenEnabledAndStayWhenRaised: NV of an ordered FCMPS of a NaN; of a vector sum, compare, scan and reductions; OF of a conversion and NX of a
quantisation, each the first that is enabled. -/
theorem test_witness_vector_flags : let s := ctx (fun c => (regs 0x7FC00000 0 0 c).putStw 40 5 1)
    let t := ctx (laned 1 1 0x7F800000 0xFF800000 0xFF800000 0)
    let n := ctx (laned 1 1 0x7F800001 0x7F7FFFFF 0 0)
    let o := ctx (laned 1 4 0x7F7FFFFF 0 0 0)
    let q := ctx (laned 1 16 0x3F800001 0x3FFFFFFF 0 0)
    let on (m : BitVec 64) (k f : Nat) (fl : Nat → Nat) (s : State) : Bool := bit s.core.act.fen f && bit (flagsOver (enabledElems k m) fl) f
    (Clear (.fcmps 2 6 1 2) s ∧ bit s.core.act.fen 0 = true ∧ bit (floatConditionFlags 2 (fpOf (readS 1 s)) (fpOf (readS 2 s))) 0 = true) ∧
    (Clear (.vadd .va 3 1 2 0) t ∧ (elementForm t (.vadd .va 3 1 2 0)).any (fun f => f.fp && decide (∀ p ∈ f.srcs, p.2 = 1) && on f.m f.k 0 f.flags t) = true) ∧
    (Clear (.vcmp .va 2 7 1 2 0) n ∧ on (readMask .va 0 n) 1 0 (fun e => floatConditionFlags 2 (fp32.decode ((readV .va 1 n).el 1 e)) (fp32.decode ((readV .va 2 n).el 1 e))) n = true) ∧
    (Clear (.vcvt .va 3 1 0 2 0) o ∧ on (readMask .va 0 o) 2 2 (fun e => (converted o 1 2 0 (readV .va 1 o) (readV .va 3 o) (e / 2) (e % 2)).2) o = true) ∧
    (Clear (.vscan .va 16 1 0 0) t ∧ on (readMask .va 0 t) 1 0
      (fun e => (scanStep fp32 0 32 (scanBefore fp32 0 1 (readV .va 1 t) (readMask .va 0 t) e) ((readV .va 1 t).el 1 e)).2) t = true) ∧
    (Clear (.vreds .va 3 1 1 0) n ∧ on (readMask .va 0 n) 1 0 (fun e => if (fp32.decode ((readV .va 1 n).el 1 e)).isSnan then flNV else 0) n = true) ∧
    (Clear (.vreds .va 3 1 0 0) t ∧ bit t.core.act.fen 0 = true ∧ bit (addTree 8 (leaves (readV .va 1 t) (readMask .va 0 t))).2 0 = true ∧
      bit (nodeFlags (readV .va 1 t) (readMask .va 0 t) 0 0) 0 = true) ∧
    (Clear (.vqnt .va 5 1 0 1) q ∧ ((quantBlock (blockW 7) (clipExp (q.core.act.hist .va) (q.core.act.qpct.toNat % 2048) (qbaseOf q.core.act))
      ((List.range 16).map (fun i => fp32.decode ((readV .va 1 q).lane i).toNat))).2.2.2.any (fun f => bit f 4)) = true) := by
  simp only [clear_iff]; (repeat' apply And.intro) <;> decide +kernel
/-- WaitingInstructionsMakeTheirAccess: a WAIT on the last word of the home window, with the test passed and not, and one on another core's slice. -/
theorem test_witness_wait_words : let s := ctx (fun c => { regs 0x3FFFF0 1 0x400000 c with
      ranges := [⟨true, true, true, true, 0, 0x400000, false, 0x800000, 0x1000000000⟩] })
    (waitTest s (.waitSw 0 1 2)).any (fun r => r.1 == 0x3FFFF0 && r.2 (List.replicate 16 0)) ∧
    (waitTest s (.waitBs 0 1 32)).any (fun r => !r.2 (List.replicate 16 0)) ∧ homeSized 0x3FFFF0 16 = true ∧
    Clear (.waitSw 0 1 2) s ∧ Clear (.waitBs 0 1 32) s ∧ s.core.act.wait = .none ∧ xlate 0x3FFFF0 16 .read 16 s = .ok (homeSpan s 0x3FFFF0 16) ∧
    Reachable [homeSpan s 0x3FFFF0 16] 0x3FFFF0 .load s ∧
    (awaited s (.waitSw 0 3 2)).isSome ∧ Clear (.waitSw 0 3 2) s ∧ xlate 0x400000 16 .read 16 s = .ok ⟨0x1000400000, 16, 0⟩ ∧
    Reachable [⟨0x1000400000, 16, 0⟩] 0x400000 .load s := by
  simp only [clear_iff, Reachable]; (repeat' apply And.intro) <;> decide +kernel
/-- PowerControlAndInvalidation: the re-read of a table that is there, and of one whose bytes are lost; a departed context of the ASID and of another. -/
theorem test_witness_reread : let t := ctx (fun c => { regs 0 0 1 c with wait := .timed 0 [] })
    let f : State := { setReg 0x3000000 0x10000000000 t with mem := [(0x1000000000A, 16), (0x1000000000D, 1), (0x10000000018, 1)], health := ⟨[], [], [0x10000100000]⟩ }
    let d := modCore (fun c => { c with shadow := .spilling (.yielded 0) false, shd := { c.shd with task := some { someTask 5 [] with desc := { (someTask 5 []).desc with asid := 1 } } } }) t
    Clear (.tlbirAll 1) t ∧ t.core.act.wait = .timed 0 [] ∧ 0 ≤ t.core.time ∧ rangesFail t (asidEntry t 0) = none ∧ (readRanges t 0).2 = [] ∧
    Clear (.tlbir 1) f ∧ (readS 1 f).toNat % 16384 = f.core.act.asid ∧ (asidEntry f 0).rtab = 0x10000100000 ∧
    rangesFail f (asidEntry f 0) = some (0x6B, 0x10000100000) ∧
    Clear (.tlbir 3) d ∧ d.core.act.asid ≠ (readS 3 d).toNat % 16384 ∧ d.core.shadow = .spilling (.yielded 0) false ∧ d.core.shd.asid = (readS 3 d).toNat % 16384 ∧
    rangesFail d (asidEntry d d.core.shd.asid) = none := by
  simp only [clear_iff]; (repeat' apply And.intro) <;> decide +kernel
/-- FencesSyncsAndBarrierSlots: a store, a burst and a buffered copy to the last bytes of the core's code windows, and none. -/
theorem test_witness_code_written : let pa := 0x60000000 + cidOf 0 * 0x10000 + 0xFFF8
    let r (c : Context) : Context := { c with ranges := [⟨true, true, true, true, 0, 0x400000, true, 0x800000, 0x5FC00000⟩] }
    let s := ctx r
    let a : State := { s with accesses := [{ mkAccess s 0 false false 0 [⟨pa, 8, 0⟩] (.atomic .add 1) .none 0 with taskid := s.core.act.tid }] }
    let b : State := { s with bursts := [⟨7, 0, .c1, 0, s.core.act.tid, 0, 0, 0, 0, .none, [], 0, 0, 8, [⟨pa, 8, 0⟩], [], 1, none, false, 0, none, ⟨7, 0, 8, 0⟩, true⟩] }
    let k : Command := ⟨3, s.core.act.tid, true, { Staging.reset with n := 8 :: List.replicate 5 1, dst := 0x40FFE0, fill := true }, 3, .none, false, false, .core, 0, 0, 0⟩
    let c := modCore (fun d => { d with engine1 := ⟨[k], none⟩ }) s
    Clear .synci s ∧ Clear .synci a ∧ Clear .synci b ∧ Clear .synci c ∧
    (∃ x ∈ pendingOf a a.core.act.tid, Claims.writes x.op ∧ ∃ p ∈ x.pieces, pkgOf p.pa = pkgId a ∧ inWindow a.lcn (localOf p.pa) = true) ∧
    (∃ x ∈ b.bursts, x.taskid = b.core.act.tid ∧ ∃ p ∈ x.dst, pkgOf p.pa = pkgId b ∧ inWindow b.lcn (localOf p.pa) = true) ∧ copiesReach c = true ∧
    (pendingOf s s.core.act.tid = [] ∧ s.bursts = [] ∧ copiesReach s = false) := by
  simp only [clear_iff]
  refine ⟨?_, ?_, ?_, ?_, ⟨_, List.mem_singleton.2 rfl, ⟨by decide +kernel, fun z n i => by intro h; cases h⟩, _, List.mem_singleton.2 rfl, ?_⟩, ?_⟩
  all_goals decide +kernel
/-- BarrierNetworksCountArrivals: a POD identifier with nothing under way; an access lost with its station. -/
theorem test_witness_pod_arrival : let s := setReg (barcfgAddr .pod 0 15) (2 ^ 35 + 1) zero
    let l := modAct (fun c => { c with task := some (someTask 5 []), deferred := [⟨0xA3, 3, 0, 0⟩] }) s
    Clear (.barn 5 15) s ∧ Clear (.barnA 5 15) s ∧ scopeOf 5 = .pod ∧ s.core.act.wait = .none ∧ Claims.mayArrive .pod 15 s ∧ quiet .pod s ∧
    stationLost l l.core.act.tid = true ∧ Claims.mayArrive .pod 15 l ∧ Clear (.barnA 5 15) l := by
  simp only [clear_iff, Claims.mayArrive, quiet]; (repeat' apply And.intro) <;> decide +kernel
/-- HistogramsCountExponents: VHCLR.RD to a register and to a Trellis position. -/
theorem test_witness_histogram_read : Clear (.vhclrRd .va 15) zero ∧ Clear (.vhclrRd .vb 16) zero := by
  simp only [clear_iff]; decide +kernel
/-- MatrixInstructionsRunOrSkip: a skipping MMAB where the rails do not stand at its level. -/
theorem test_witness_skip_settles : let i := ctx (fun c => let d := tiled fpTile .float .ranked c; { d with accs := [Acc.zero, ⟨.ranked, 1, false, false, List.replicate 32 1,
      List.replicate 32 (0x40000000 :: List.replicate 31 0), none, none, false, none⟩, Acc.zero, Acc.zero] })
    let u := modSlot (fun x => { x with xb := 1, hdr := true }) i
    let r := modCore (fun d => { d with rail := 3 }) u
    levelOf u u.lcn = u.core.rail ∧ Clear (.mmab 9 0 1 0) r ∧ mmaState r false 9 0 1 = none ∧ skips r 9 0 0 = true ∧ levelOf r r.lcn ≠ r.core.rail := by
  simp only [clear_iff]; (repeat' apply And.intro) <;> decide +kernel
/-- RankedAccumulatorsTakeOffersAndAreRead: the instructions of ranked accumulators on a float and an integer one. -/
theorem test_witness_kinds : let s := ctx (fun c => tiled fpTile .float .int (tagged 1 0 c))
    let r := ctx (fun c => tiled fpTile .ranked .int (tagged 1 11 c))
    Clear (.rkrel 8) s ∧ Clear (.rkacc 8 9 0) s ∧ Clear (.rkst 8 1 0) s ∧ Clear (.rkmerge 9 1) s ∧ Clear (.rkins 9 1 2 0) s ∧ (readV .va 2 s).tag = 0 ∧
    (accAt s 8).kind ≠ .ranked ∧ (accAt s 9).kind ≠ .ranked ∧ Clear (.rkth 3 9) s ∧ Clear (.rklen 3 8) s ∧
    Clear (.rkacc 8 8 0) r ∧ (accAt r 8).kind = .ranked ∧ (accAt r 8).vt = false ∧ Clear (.rkacc 8 9 0) r ∧ (accAt r 9).kind ≠ .float ∧
    Clear (.rkins 9 1 2 0) r ∧ (readV .va 2 r).tag = 11 ∧ (accAt r 9).kind ≠ .ranked := by
  simp only [clear_iff]; (repeat' apply And.intro) <;> decide +kernel
/-- CopiesAndStreamsAreQueued: a CPY whose issue tick has come and has passed. -/
theorem test_witness_issue_tick : let s := ctx (regs 5 0 0)
    let l := { s with time := 9 * 315 }
    Clear (.cpy .c1 1 1 3 1 5) s ∧ (engineOf .c1 s).buffer = [] ∧ tickNow s ≤ (readS 1 s).toNat ∧ Clear (.cpy .c1 1 1 3 1 5) l ∧ (readS 1 l).toNat < tickNow l := by
  simp only [clear_iff]; (repeat' apply And.intro) <;> decide +kernel
/-- AStepExecutesTheDecodedInstruction: a disabled vector slot whose stepped destination would be no register; a BARCFG write within a tick and at its start. -/
theorem test_witness_step_disabled : let v := (encodeSlot ⟨false, .vadd .va 15 1 2 0⟩).getD 0
    let d := modAct (fun c => { c.putStw 16 16 2 with rep := some ⟨0, 3, false⟩ }) (at_ true 1 0x70000010 v)
    let y : Slot := ⟨false, .vadd .va 15 1 2 0⟩
    let h : Happening := .barcfgWrite 0x2101178 0
    let b (w : Nat) : State := { zero with agenda := [(w, h)] }
    (midBundle d = true ∧ decodeSlot (wordAt d) = .ok y ∧ isNop y.op = false ∧ inTurn y d ∧ guardArrived d ∧ guardOn (extAt d) (begun d) = false ∧
      faultAt y d = none) ∧
    (midBundle (b 315) = false ∧ choose (b 315) = .event 315 h ∧ heldBack (b 315) h = false ∧ max (b 315).time 315 % Config.unitsPerTick = 0) ∧
    (choose (b 316) = .event 316 h ∧ heldBack (b 316) h = false ∧ max (b 316).time 316 % Config.unitsPerTick ≠ 0) := by
  simp only [inTurn, guardArrived]; (repeat' apply And.intro) <;> decide +kernel
/-- Core 1151 has task 5 of band 0 in its shadow bank. -/
def shadowed (p : Preload) (s : State) : State :=
  { s with lcn := 1151, core := { s.core with shadow := .loaded, preloads := [p], shd := { s.core.shd with task := some p.entry.task } } }
/-- KiosksAcceptSelectAndAge: a descriptor of band 1 that a shadow task of band 0 gives way to; one behind an earlier source's and one that meets a full
band; a shadow task that stays. -/
theorem test_witness_gives_way : let bs : List Byte := List.replicate 61 0 ++ [0x40, 0, 0]
    let p : Preload := ⟨entry 5 0, 2, 0, 0, false⟩
    let s := doing (.taskAcceptance 287 (.core 0 0) bs) (shadowed p zero)
    let a (b : List Byte) := doing (.taskAcceptance 287 (.host 0) b) { zero with agenda := [(3, .taskAcceptance 287 (.core 0 0) b)] }
    let f := { doing (.taskAcceptance 287 (.core 0 0) bs) (kiosk 287 (fun k => { k with bands := [[], List.replicate 256 (entry 5 1), [], []] })) with agenda := [] }
    let z := doing (.taskAcceptance 287 (.core 0 0) (List.replicate 64 0)) (shadowed p zero)
    (performing (.taskAcceptance 287 (.core 0 0) bs) s ∧ earlierAccept s 287 (sourceRank (.core 0 0)) = none ∧ refusedAt s (.core 0 0) bs = none ∧
      (kioskAt s 287).bands.length = 4 ∧ (parseDescriptor bs).band = 1 ∧ (kioskAt s 287).used 1 < 256 ∧ (kioskAt s 287).used p.entry.band < 256 ∧
      (newEntry s 287 bs).dispatchable s 287 = true ∧ p.entry.dispatchable s 287 = true ∧ givesWay s 287 (newEntry s 287 bs) (287 * 4 + 3) p ∧
      ∀ j < 4, j ≠ 3 → (coreAt s (287 * 4 + j)).shadow = .free) ∧
    (earlierAccept (a bs) 287 (sourceRank (.host 0)) = some 3 ∧ earlierAccept f 287 (sourceRank (.core 0 0)) = none ∧ refusedAt f (.core 0 0) bs = none ∧
      256 ≤ (kioskAt f 287).used 1) ∧
    (performing (.taskAcceptance 287 (.core 0 0) (List.replicate 64 0)) z ∧ (newEntry z 287 (List.replicate 64 0)).dispatchable z 287 = true ∧
      (coreAt z (287 * 4 + 3)).shadow = .loaded ∧ (newEntry z 287 (List.replicate 64 0)).admits z 287 (287 * 4 + 3) = true ∧
      (parseDescriptor (List.replicate 64 0)).band ≤ p.entry.band ∧ ∀ i < 4, ∀ x ∈ (coreAt z (287 * 4 + i)).preloads, x = p) := by
  simp only [performing, givesWay, notSwapping]; (repeat' apply And.intro)
  all_goals first
    | decide +kernel
    | (intro c h; exact absurd h (by simp [shadowed, doing, zero, State.reset, Core.reset, coreAt]))
/-- KiosksAcceptSelectAndAge, KiosksBalanceAndObeyTheRuntime: places in the band that an entry goes to, and a quad that serves it. -/
theorem test_witness_places : let old := doing (.entryAging 287 5) (atTick (2 ^ 20 + 1) (kiosk 287 (fun k => { k with bands := [[entry 5 0], [], [], []] })))
    let v := kiosk 287 (fun k => { k with arriving := [entry 5 0] })
    let o := kiosk 287 (fun k => { k with overrun := [entry 5 3], bands := [[], [], [], List.replicate 255 (entry 6 3)] })
    ((entry 5 0).dispatchable old 287 = true ∧ (kioskAt old 287).used 1 < 256) ∧
    (performing (.balanceArrival 287) (doing (.balanceArrival 287) v) ∧ (∀ e ∈ (kioskAt v 287).arriving, e.dispatchable v 287 = true) ∧
      ∀ b < 4, (kioskAt v 287).used b + ((kioskAt v 287).arriving.filter (fun e => e.band == b)).length ≤ 256) ∧
    ((kioskAt o 287).overrunEntry 5 = some (entry 5 3) ∧ (kioskAt o 287).bands.length = 4 ∧ (entry 5 3).dispatchable o 287 = true ∧
      { entry 5 3 with saved := none }.dispatchable o 287 = true ∧ hasPlace o 287 3 5) := by
  simp only [performing, hasPlace]; (repeat' apply And.intro) <;> decide +kernel
/-- TasksEndAndJoin: a context lost behind its TEXIT; a join word where no row is tested. -/
theorem test_witness_lost_behind_exit : let s := modCore (fun d => { d with swapReq := some .exited }) (lastCore id id)
    let j := lastCore (joins 0x3FFFF0) id
    ((coreAt s 1151).act.task.isSome = true ∧ (coreAt s 1151).act.ending = none ∧ (coreAt s 1151).swapReq = some .exited ∧
      (coreAt (lastCore id id) 1151).swapReq ≠ some .exited) ∧ inMotion j (localOf (homeSpan j 0x3FFFF0 16).pa) 16 = false := by
  (repeat' apply And.intro) <;> decide +kernel
/-- A departed context of task 5 on core 1151, whose save slot is the last of a pool at the given address and whose bytes are under way or not. -/
def spilling (base : Nat) (b : Bool) : State := setReg (0x1000050 + 287 * 0x1000) base
  (modCore (fun d => { d with shadow := .spilling (.yielded 0) b, shd := { d.shd with task := some { (entry 5 0).task with slot := some (287, 0) } } })
    { zero with lcn := 1151 })
/-- Nothing of any length is in motion where no row is tested, the Lodge serves and no unit moves. -/
theorem still (s : State) (a n : Nat) (h : s.health.testing = []) (f : s.handover.frozen = false) (m : s.tables.moving = []) : inMotion s a n = false := by
  simp [inMotion, rowTested, lodgeWaits, h, f, m]
/-- A span that begins at a moving unit is in motion. -/
theorem moves (s : State) (u n : Nat) (h : u ∈ s.tables.moving) (p : 0 < n) : inMotion s (u * 4096) n = true := by
  have : (s.tables.moving.any (fun v => decide (v * 4096 < u * 4096 + n) && decide (u * 4096 < (v + 1) * 4096))) = true :=
    List.any_eq_true.2 ⟨u, h, by simp; omega⟩
  rw [inMotion, this, Bool.or_true]
/-- ContextsEnterLeaveAndMove: a departed context that is not ready to be saved, and a ready one whose slot is here, moving, and in another package; a
migration while an older region table drains and not. -/
theorem test_witness_spills : let t : Task := { (entry 5 0).task with slot := some (287, 0) }
    let s := spilling 0x10000000000 true
    let w : State := { s with accesses := [{ mkAccess s 0 false false 0 [] .load .none 0 with taskid := 5 }] }
    let m : State := { s with tables := { s.tables with moving := [0x10000000] } }
    let f := spilling (3 * 2 ^ 46 + 0x10000000000) true
    let g := modCore (fun d => { d with swapReq := some (.migrated 1150), leaving := .copying }) (lastCore id id)
    ((coreAt s 1151).shd.task = some t ∧ imageAway s 1151 t = false ∧ spillReady w (coreAt w 1151) = false ∧ imageAway w 1151 t = false) ∧
    (imageAway (spilling 0x10000000000 false) 1151 t = false ∧ rowTested { spilling 0x10000000000 false with
      health := ⟨[(.bank 1151 0, 0)], [], []⟩ } (sliceBase (cidOf 1151) + t.plist.fplo) (t.plist.fphi - t.plist.fplo) = false) ∧
    (spillReady s (coreAt s 1151) = true ∧ slotWritable s t = true ∧ quadServes s t.quad = true ∧ (kioskAt s t.quad).used t.desc.band < 256 ∧
      pkgOf (slotBase s 287 0) = pkgId s) ∧
    (spillReady m (coreAt m 1151) = true ∧ slotWritable m t = true ∧ localOf (slotBase m 287 0) = 0x10000000 * 4096 ∧ 0x10000000 ∈ m.tables.moving) ∧
    (spillReady f (coreAt f 1151) = true ∧ slotWritable f t = true ∧ pkgOf (slotBase f 287 0) ≠ pkgId f ∧ f.accesses = []) ∧
    ((coreAt g 1151).leaving = .copying ∧ (coreAt g 1151).swapReq = some (.migrated 1150) ∧ regionDrains g = false ∧
      regionDrains { g with tables := { g.tables with departed := some [] } } = true) := by
  (repeat' apply And.intro) <;> decide +kernel
/-- An image has bytes. -/
theorem spill_pos (c : Context) : 0 < (spillBytes c + 63) / 64 * 64 := by
  have h : 0 < spillBytes c := by unfold spillBytes; dsimp only; split <;> omega
  omega
/-- ContextsEnterLeaveAndMove: the slot whose unit does not move, and the one whose unit does. -/
theorem test_witness_slots_move : let s := spilling 0x10000000000 true
    let len := (spillBytes (coreAt s 1151).shd + 63) / 64 * 64
    inMotion s (localOf (slotBase s 287 0)) len = false ∧ inMotion { s with tables := { s.tables with moving := [0x10000000] } } (0x10000000 * 4096) len = true :=
  ⟨still _ _ _ rfl rfl rfl, moves _ 0x10000000 _ (List.mem_singleton.2 rfl) (spill_pos _)⟩
/-- ResultsBundlesAndBarriersGoOn: the last BARCFG of each scope. -/
theorem test_witness_barrier_places : barcfgPlace .quad 287 15 (0x1000100 + 287 * 0x1000 + 8 * 15) ∧ barcfgPlace .die 7 15 (0x2000100 + 7 * 0x1000 + 8 * 15) ∧
    barcfgPlace .pkg 0 15 (0x2100100 + 8 * 15) ∧ barcfgPlace .pod 0 15 (0x2101100 + 8 * 15) ∧ (¬∃ p < pkgId zero, Config.podEnabled p 15 (tickNow zero) = true) ∧
    performing (.barcfgWrite 0x2101178 (2 ^ 35 + 5)) (doing (.barcfgWrite 0x2101178 (2 ^ 35 + 5)) zero) ∧ (2 ^ 35 + 5 : W64).getLsbD 35 = true ∧
    (barrierAt zero .pod 0 15).tick = tickNow zero := by
  refine ⟨.inl ⟨rfl, by decide, rfl⟩, .inr (.inl ⟨rfl, by decide, rfl⟩), .inr (.inr (.inl ⟨rfl, rfl, rfl⟩)), .inr (.inr (.inr ⟨rfl, rfl, rfl⟩)), ?_, ?_⟩
  · rintro ⟨p, h, -⟩; have : pkgId zero = 0 := by decide +kernel
    omega
  · simp only [performing]; decide +kernel
/-- HostAccessesPassTheIngress: DRAM and LPDDR6 addresses with nothing before them, behind a held request, and in a unit that moves; what the host port tries again; a claimed
head entry with a read that waits for it alone; reads of an empty and a held die; aged and young heads and requests; DRAIN set and clear. -/
theorem test_witness_host_paths : let a := sliceBase (cidOf 1151) + 0x3FFFC0
    let l := 0x10000000000
    let e : HostEntry := ⟨a, List.replicate 64 1, List.replicate 64 true, 0, some (5, 1), 0⟩
    let w : HostWaiting := ⟨3, a - 64, 64, none, [], 1, 0⟩
    let s (ws : List HostWaiting) : State := { zero with ingress := [(7, ⟨[e], ws, 0⟩)] }
    let h (k : Nat) : State := { zero with hostHeld := [⟨.write l (List.replicate 64 1) (List.replicate 64 true) 3, k⟩] }
    let m : State := { zero with tables := { zero.tables with moving := [0x10000000] } }
    let q (t : Nat) : State := { setReg 0x2007200 5 zero with ingress := [(7, ⟨[], [{ w with behind := 0 }], 0⟩)], time := t * 315 }
    (unbuffered zero l 64 ∧ inMotion zero l 64 = false ∧ zero.hostHeld = [] ∧ (∀ g ∈ zero.ingress, g.2.entries = []) ∧ (h 0).hostHeld ≠ [] ∧
      inMotion (h 0) l 64 = false ∧ inMotion m l 64 = true ∧ unbuffered m l 64 ∧
      { m with hostHeld := (h 0).hostHeld }.hostHeld ≠ [] ∧ inMotion { m with hostHeld := (h 0).hostHeld } l 64 = true) ∧
    (performing .portRetry (doing .portRetry (h 0)) ∧ (h 0).hostPort = [] ∧ ∀ g ∈ (h 0).ingress, ∀ x ∈ g.2.entries, 0 ≤ x.serial) ∧
    ((∀ ws ∈ [[], [w]], (ingressAt (s ws) 7).entries = [e] ∧ (ingressAt (s ws) 7).waiting = ws ∧ plainEntries (s ws) [e] ∧ (s ws).memOk = true ∧
      (s ws).hostHeld = [] ∧ (s ws).hostPort = []) ∧ e.claimed.isSome = true ∧ e.enables.length = e.bytes.length ∧ w.behind = 1 ∧ w.kport = none ∧
      pkgOf w.addr = pkgId (s [w]) ∧ Claims.inSlice (s [w]) (localOf w.addr) w.len ∧ inMotion (s [w]) (localOf w.addr) w.len = false ∧
      spanBad (s [w]) (localOf w.addr) w.len = false) ∧
    (Claims.inSlice zero (localOf a) 64 ∧ (ingressAt zero (dieOfSlice (localOf a))).entries = [] ∧ inMotion zero (localOf a) 64 = false) ∧
    (regRaw (s []) (0x2000200 + 7 * 0x1000) / 2 ^ 32 % 2 = 1 ∧ (let age := max e.tick (ingressAt (s []) 7).lastClaim + regRaw (s []) (0x2000200 + 7 * 0x1000) % 2 ^ 32
      (s []).time / 315 < age ∧ age ≤ (atTick age (s [])).time / 315) ∧ (atTick 9 (s [])).hostPort = [] ∧ plainEntries (atTick 9 (s [])) [e]) ∧
    (regRaw (q 4) (0x2000200 + 7 * 0x1000) / 2 ^ 32 % 2 = 0 ∧ (q 4).time / 315 < 0 + regRaw (q 4) (0x2000200 + 7 * 0x1000) % 2 ^ 32 ∧
      0 + regRaw (q 5) (0x2000200 + 7 * 0x1000) % 2 ^ 32 ≤ (q 5).time / 315 ∧ (ingressAt (q 5) 7).waiting = [{ w with behind := 0 }]) ∧
    ((2 ^ 33 : W64).toNat / 2 ^ 33 % 2 = 1 ∧ (0 : W64).toNat / 2 ^ 33 % 2 = 0 ∧ (ingressAt (s []) 7).waiting = [] ∧ plainEntries (s []) (ingressAt (s []) 7).entries) := by
  simp only [unbuffered, plainEntries, Claims.inSlice, performing]; (repeat' apply And.intro) <;> decide +kernel
/-- RecordsRegistersAndMemoryHealth: one record in the platform ring, and in an interface's ring at another place as well; the codes of KACT; a row whose bank has spares
and none; bad units of LPDDR6, an aperture; tables that wait and drain; a unit whose channel is tested. -/
theorem test_witness_rings : let p := setReg 0x2600800 (0x10000000000 + 6) zero
    let two := setReg (0x2600000 + 63 * 0x20) (0x10000001000 + 15) p
    let one (r : Rec) (s : State) : State := { s with reports := [⟨(0, 0), 0, .record r⟩] }
    let pr : Rec := { area := 1, event := 0x0101 }
    let ir : Rec := { area := 1, cause := 0x61, taskid := 5, ifc := some 63 }
    let n : Rec := { area := 1, cause := 0x8C, ifc := some 63 }
    let hl (b : List Nat) (t : List (MemPlace × Nat)) : State := { zero with health := ⟨t, [], b⟩ }
    let tb (w : List (List Nat)) : State := { zero with tables := { zero.tables with old := some (List.range 32), waiting := w, since := 1, departed := some [], regionSince := 1 } }
    let busy : State := { tb [] with accesses := [mkAccess zero 0 false false 0 [] .load .none 0], nextId := 1 }
    let mv (t : List (MemPlace × Nat)) : State := { hl [] t with tables := { zero.tables with moving := [0x10000000] } }
    let k (v : W64) := doing (.registerWrite (0x1000068 + 287 * 0x1000) v) zero
    (pr.ifc = none ∧ n.taskid = 0xFFFFFFFF ∧ ringServes (one pr p) 64 ∧ (one pr p).memOk = true) ∧
    (ir.ifc = some 63 ∧ ir.taskid ≠ 0xFFFFFFFF ∧ ringServes (one ir two) 63 ∧ ringServes (one ir two) 64 ∧ (one ir two).memOk = true ∧
      localOf (ringPlace (one ir two) 63) ≠ localOf (ringPlace (one ir two) 64)) ∧
    ((one n zero).reports = [⟨(0, 0), 0, .record n⟩] ∧ ¬ringRoom (one n zero) 64) ∧
    (∀ e ∈ [(0, 0x5), (1, 0x100000005), (2, 0x200000005), (3, 0x300000005)], performing (.registerWrite (0x1000068 + 287 * 0x1000) e.2) (k e.2) ∧ e.2.toNat / 2 ^ 32 % 4 = e.1) ∧
    (placeOk (.channel 31) = true ∧ sparesOf (hl [] [(.channel 31, 5)]) (.channel 31) 5 < 16 ∧
      (MemPlace.channel 31, 5) ∈ (hl [] [(.channel 31, 5)]).health.testing) ∧
    (0x4000000 * 64 * 256 ∈ (hl [0x10000000000] []).health.bad ∧ regionOf (0x400000000 * 64) = .lpddr ∧ regionOf 0x10000000040 = .lpddr ∧
      regionOf (sliceBase (cidOf 1151) + 0x3FFFF8) = .slice ∧ regionOf 0x1000000 = .aperture ∧ regionOf 0x2000000000 = .hole) ∧
    ((tb []).tables.old.isSome = true ∧ routedBefore busy busy.tables.since = true ∧ routedBefore (tb []) (tb []).tables.since = false ∧ (tb []).tables.waiting = [] ∧
      (tb [List.range 32]).tables.waiting = List.range 32 :: [] ∧ routedBefore (tb [List.range 32]) 1 = false) ∧
    (zero.tables.departed = none ∧ (tb []).tables.departed.isSome = true ∧ routedBefore busy busy.tables.regionSince = true ∧ (tb []).tables.toFree = []) ∧
    (0x10000000 ∈ (mv [(.channel (channelOf zero.tables.map (0x10000000 * 4096)), 0)]).tables.moving ∧
      (∃ e ∈ (mv [(.channel (channelOf zero.tables.map (0x10000000 * 4096)), 0)]).health.testing,
        e.1 = .channel (channelOf (mv [(.channel (channelOf zero.tables.map (0x10000000 * 4096)), 0)]).tables.map (0x10000000 * 4096)))) := by
  simp only [ringServes, ringRoom, performing]; (repeat' apply And.intro) <;> decide +kernel
/-- RecordsRegistersAndMemoryHealth: no core of the reset state is to be retired. -/
theorem test_witness_none_retires (n : Nat) : (coreAt zero n).retirePending = false := by
  show (if n == 0 then Core.reset else (assocGet n Core.reset ([] : List (Nat × Core)))).retirePending = false
  split <;> rfl
/-- RecordsRegistersAndMemoryHealth: rows of one bank of a DRAM channel with all its spares in use. -/
theorem test_witness_no_spares : let b : State := { zero with health := ⟨[(.channel 31, 5)], List.replicate 16 (.channel 31, 5), []⟩ }
    (∀ n k, MemPlace.channel 31 ≠ .bank n k) ∧ 16 ≤ sparesOf b (.channel 31) 5 := by
  intro b
  refine ⟨fun n k h => (by cases h), ?_⟩
  simp [b, sparesOf, sameBank, List.replicate]
/-- TheLodgeServesAndHandsOver: an interface with no scrub under way; a GO while a hand-over is on, with nothing asked, and after one, with a header that does not verify and one
that does; beats that came, and an instance that stopped, on trial and after a fall back; the last trunk port at its fewest and most permits. -/
theorem test_witness_instances : let h (st k : Nat) (b x w : Bool) : State := { zero with
      handover := { zero.handover with st := st, role := 1, hbok := k, beat := b, stopped := x, image := some ⟨true, 1, 2, 0, 9⟩, watchOld := w } }
    let m := minimaOf (regRaw zero (0x2200000 + 287 / 36 * 0x1000))
    ((interfaceAt zero 63).scrubEnds = none ∧ zero.reports = []) ∧
    ((0 : W64).toNat / 4 % 2 = 0 ∧ (5 : W64).toNat / 4 % 2 = 1 ∧ 1 ≤ (h 3 0 false false false).handover.st ∧ 3 < (h 6 0 false false false).handover.st ∧
      (⟨false, 1, 2, 0, 9⟩ : FirmwareImage).verified = false ∧ (⟨true, 1, 2, 0, 9⟩ : FirmwareImage).verified = true ∧ (⟨true, 1, 2, 0, 9⟩ : FirmwareImage).role = (5 : W64).toNat % 4) ∧
    ((h 3 198 true false false).handover.beat = true ∧ (h 3 198 true false false).handover.stopped = false ∧ (h 3 198 true false false).handover.hbok + 1 = 199 ∧
      (h 3 199 true false false).handover.hbok + 1 = 200 ∧ (h 3 5 true true false).handover.stopped = true ∧ untold (h 3 5 true true false) ∧
      (h 3 5 true true false).measurements.length = 6) ∧
    ((h 5 0 true false true).handover.watchOld = true ∧ (h 5 0 true false true).handover.beat = true ∧ (h 5 0 true true true).handover.stopped = true ∧
      (atTick 1200000 (h 5 0 true false true)).time / 315 = (h 5 0 true false true).handover.instant + 1 * 1200000) ∧
    (performing (.trunkDegraded 287 255) (doing (.trunkDegraded 287 255) zero) ∧ m.sum ≤ 255 ∧ 5 < m.sum ∧ m.length = 5) := by
  simp only [untold, performing]; (repeat' apply And.intro) <;> decide +kernel
/-- FlowsArePromotedAndLanternsProbe: a mark behind a packet that is being sent and one that is not; a burst at its last beat, behind another of its flow and not; a mark
behind a burst, one whose entry has lost its circuit with a burst held; an element whose circuit is a handle's, and one that is a flow's; a failure of a circuit that has gone. -/
theorem test_witness_losses : let fid : FlowId := ⟨cidOf 1151, cidOf 0, 255⟩
    let fl (st : FlowState) : Flow := ⟨fid, 1, 64, st, 0, false, 0, 0, 0⟩
    let s (st : FlowState) : State := { zero with agenda := [], turnstiles := [(287, List.replicate 63 none ++ [some (fl st)])] }
    let b (id off n stage : Nat) (c : Bool) : Burst := ⟨id, 1151, .c0, 0, 5, 0, 0, 0, 255, .none, [], 0, 0, 64, [], [], stage, some (fid, off), c, n, none, ⟨id, 0, 64, 0⟩, true⟩
    let landing (hd : List Burst) : Landing := ⟨fid, 287, 63, hd, false, 0, 0, 0⟩
    let w : State := { s .promoting with bursts := [b 7 0 1 1 false] }
    let c : State := { s .promoted with bursts := [b 7 0 1 2 true, b 8 64 2 2 true], landings := [landing []] }
    let g : State := { s (.heldOff 3) with bursts := [b 7 0 2 2 true], landings := [landing [b 7 0 2 2 true]] }
    let v : Handle := ⟨.opened, 1150, 0, 1, [⟨0, 0, 8192, .none, .c0, 0, false, .core, 0, 0, 0, 0⟩], false, false, 1⟩
    let o : State := { lastCore id (fun x => { x with handles := v :: List.replicate 7 Handle.free }) with held := [⟨.trunk 7 0 11, .handle 5 0⟩] }
    let p : State := { s .promoted with held := [⟨.trunk 7 0 11, .flow 287 63⟩] }
    (markWaits w (.flow 287 63) = true ∧ markWaits (s .promoting) (.flow 287 63) = false ∧ lcnOf fid.src / 144 ≠ lcnOf fid.dst / 144 ∧
      (permitsAt (s .promoting) (lcnOf fid.dst / 4)).length = 5) ∧
    (landingOf c fid = some (landing []) ∧ (b 7 0 1 2 true).beats + 1 = 1 + ((b 7 0 1 2 true).len + 63) / 64 ∧ behindCircuit c (b 7 0 1 2 true) = false ∧
      (b 7 0 1 2 true).rel = none ∧ 1 + ((b 8 64 2 2 true).len + 63) / 64 ≤ (b 8 64 2 2 true).beats ∧ behindCircuit c (b 8 64 2 2 true) = true ∧ (∀ x ∈ c.bursts, x.id ≠ 9)) ∧
    (b 7 0 0 2 false ∈ [b 7 0 0 2 false] ∧ (b 7 0 0 2 false).circuit = false ∧ (b 7 0 0 2 false).flow = some (fid, 0) ∧ flowBefore 0 64 = true) ∧
    (landingOf g fid = some (landing [b 7 0 2 2 true]) ∧ (∀ x ∈ g.bursts, x.circuit = true) ∧ onItsCircuit g (landing [b 7 0 2 2 true]) = false) ∧
    (⟨.trunk 7 0 11, .handle 5 0⟩ ∈ o.held ∧ holds o 1151 5 ∧ ((coreAt o 1151).act.handle 0).st = .opened ∧ ((coreAt o 1151).act.handle 0).running = false ∧
      (∀ l ∈ o.lanterns, l.owner ≠ .handle 5 0) ∧ (∃ x ∈ o.held, x.owner = .handle 5 0) ∧ (∀ x ∈ o.held, x.owner ≠ .handle 5 7)) ∧
    (entryIs p 287 63 (fl .promoted) ∧ (∃ x ∈ p.held, x.owner = .flow 287 63) ∧ (∀ l ∈ p.lanterns, l.owner ≠ .flow 287 63) ∧ p.bursts = [] ∧ p.landings = []) := by
  simp only [holds, entryIs]; (repeat' apply And.intro) <;> decide +kernel
/-- CopiesAndStreamsMoveBytes: a whole burst of a fill and of a copy that reads the home window, with its source below and above a watermark; a burst that reads its source;
the last burst of a command; a permit that returns; a segment that waits and one that does not. -/
theorem test_witness_bursts :
    let g (r : Option Running) (f : Context → Context) : State := modCore (fun d => { d with engine1 := ⟨[], r⟩ }) (lastCore id f)
    let k (fill : Bool) : Command := { filling 64 0 0x100 with staging := { Staging.reset with n := 16 :: List.replicate 5 1, src := 0x3FFFC0, dst := 0x100, fill := fill } }
    let ru (fill : Bool) : Running := ⟨k fill, List.replicate 5 0, 0, false, 0, false, 0, none⟩
    let a (fill : Bool) := g (some (ru fill)) id
    let w := g (some (ru false)) (fun c => { c with marks := ⟨0, 0x40000, 0x3FFFC, true, []⟩ :: List.replicate 7 Watermark.reset })
    let sp := homeSpan (a false) 0x3FFFC0 64
    let dp := homeSpan (a false) 0x100 64
    let b (stage : Nat) : Burst := ⟨7, 1151, .c1, 3, 5, 0, 0, 0, 0, .none, [sp], 0, 0, 64, [dp], List.replicate 64 1, stage, none, false, 0, none, ⟨7, 0, 64, 0⟩, true⟩
    let bs (n : Nat) : State := { g none id with bursts := [b n] }
    let m : State := { bs 0 with health := ⟨[(.bank 1151 31, 127)], [], []⟩ }
    let pm : State := { zero with permits := [(287, [(0, 0), (0, 0), (1, 1), (0, 0), (0, 0)])] }
    (mayIssue (a true) (ru true) (coreAt (a true) 1151).act 64 ∧ (ru true).cmd.staging.fill = true ∧ runs (a true) 1151 .c1 (ru true) ∧
      copyPieces (a true) 1151 ((coreAt (a true) 1151).act.putStw 2 1 1) .write (chunks 0x100 64) = .ok [dp] ∧ oneRoute (a true) [dp] 64 ∧
      copyStalls (a true) 1151 ((coreAt (a true) 1151).act.putStw 2 1 1) (some (chanIdx .c1 3)) [dp] = false) ∧
    (mayIssue (a false) (ru false) (coreAt (a false) 1151).act 64 ∧ (ru false).cmd.staging.fill = false ∧
      copyPieces (a false) 1151 ((coreAt (a false) 1151).act.putStw 2 1 1) .read (chunks 0x3FFFC0 64) = .ok [sp] ∧ oneRoute (a false) [sp] 64 ∧ pkgOf sp.pa = pkgId (a false) ∧
      copyStalls (a false) 1151 ((coreAt (a false) 1151).act.putStw 2 1 1) none [sp] = false ∧
      mayIssue w (ru false) (coreAt w 1151).act 64 ∧ copyStalls w 1151 ((coreAt w 1151).act.putStw 2 1 1) none [sp] = true) ∧
    ((bs 0).bursts = [b 0] ∧ (b 0).src = [sp] ∧ inMotion (bs 0) (localOf sp.pa) 64 = false ∧ spanBad (bs 0) (localOf sp.pa) 64 = false ∧ inMotion m (localOf sp.pa) 64 = true) ∧
    ((b 2).rel = none ∧ (b 2).bind = .none ∧ (b 2).last = true ∧ currentTables (bs 2) (b 2) ∧ (b 2).dst = [dp] ∧ (b 2).len = dp.len ∧ dp.inMemory (bs 2)) ∧
    ((287 : Nat) < 288 ∧ 2 < (permitsAt pm 287).length ∧ 0 < (heldOf pm 287 2).1 ∧ 0 < (heldOf pm 287 2).2) := by
  simp only [mayIssue, oneRoute, runs, currentTables, Piece.inMemory]; (repeat' apply And.intro) <;> decide +kernel
/-- CopiesAndStreamsMoveBytes: a segment behind a claimed host write, and one with nothing before it. -/
theorem test_witness_segments : let m : Stream := ⟨0, sliceBase (cidOf 1150), 8192, .none, .c0, 0, false, .core, 0, 0, 0, 0⟩
    let s := lastCore id (fun c => { c with handles := ⟨.opened, 1150, 0, 1, [m], true, false, 1⟩ :: List.replicate 7 Handle.free })
    let q : State := { s with ingress := [(7, ⟨[⟨sliceBase (cidOf 1151), [1], [true], 0, some (5, 0), 0⟩], [], 0⟩)] }
    let own := sliceBase (cidOf 1151) + m.src + m.committed
    let waits (s : State) := claimPending s 5 m.cid || rowTested s (localOf m.dst + m.committed) (nextSegment m) || rowTested s own (nextSegment m) ||
      copyStalls s 1151 (coreAt s 1151).act none [⟨pkgId s * 2 ^ 46 + own, nextSegment m, 0⟩]
    holds s 1151 5 ∧ ((coreAt s 1151).act.handle 0).streams = [m] ∧ ((coreAt s 1151).act.handle 0).running = true ∧ ((coreAt s 1151).act.handle 0).expired = false ∧
    (coreAt s 1151).act.ending = none ∧ m.committed + nextSegment m < m.len ∧ segmentStop s 1151 (nextSegment m) m = none ∧ waits s = false ∧
    regionOf (localOf m.dst + m.committed) = .slice ∧ waits q = true ∧ segmentStop q 1151 (nextSegment m) m = none := by
  simp only [holds]; (repeat' apply And.intro) <;> decide +kernel
/-- AccessesPerformAndAnswer: a row of an access's bytes under test; a release at POD scope behind an access that a station lost; an arrival at a slot elsewhere; a join
update and a host read that failed; requests of another package that it serves, of each kind, and the barrier's on and off. -/
theorem test_witness_requests : let s := lastCore id id
    let p := homeSpan s 0x3FFFF0 16
    let far : Piece := ⟨3 * 2 ^ 46, 16, 0⟩
    let x (op : AccessOp) (r : AccessReturn) : Access := { mkAccess s 0 false true 0x3FFFF0 [p] op r 9 with id := 4, group := 4, performed := true, failed := some (0x6B, 0x3FFFF0) }
    let w (l : List Access) : State := { s with accesses := l }
    let m : State := { w [x .load .waiting] with health := ⟨[(.bank 1151 31, 127)], [], []⟩ }
    let l := modAct (fun c => { c with deferred := [⟨0xA3, 3, 0, 0⟩] }) s
    let ar : Access := { mkAccess s 0 false true 0 [far] (.arrive 1) .waiting 0 with pod := true }
    let st (v : Byte) : State := { s with mem := [(sliceBase (cidOf 1151) + 0x3FFFF4, 1), (sliceBase (cidOf 1151) + 0x3FFFFF, v)] }
    let old (v : Byte) := readLocal (st v) 0 (localOf p.pa) 16
    let e := setReg (barcfgAt .pod 0 15) (2 ^ 35 + 1) zero
    (sentUnder s (x .load .waiting) ∧ inMotion m (localOf p.pa) 16 = true ∧ inMotion s (localOf p.pa) 16 = false) ∧
    (ar.podRelease l = true ∧ stationLost l ar.taskid = true ∧ ar.op = .arrive 1 ∧ ar.rel = true ∧ far ∈ ar.pieces ∧ pkgOf far.pa ≠ pkgId s) ∧
    (coreAt s 1151).leaving = .no ∧
    (∀ r ∈ [AccessReturn.none, .scalar 2 8 false, .vector 2 [0] 0, .tile 0 [0]], sole (w [x .load r]) (x .load r)) ∧
    (sole (w [x (.joinEnd 1) .none]) (x (.joinEnd 1) .none) ∧ sole (w [x .load (.host 9 true)]) (x .load (.host 9 true)) ∧ holds s 1151 5) ∧
    (mayServe s p.pa 16 ∧ spanBad s (localOf p.pa) 16 = false ∧ partialBad s (localOf p.pa) 16 = false ∧ s.memOk = true ∧ p.inMemory s ∧ inMotion m (localOf p.pa) 16 = true ∧
      regionOf (localOf p.pa) = .slice ∧ regionOf (localOf p.pa + 16 - 1) = .slice) ∧
    (remoteAtomic 0x68 0 = some .add ∧ remoteAtomic 0 0 = none ∧ mayServe s p.pa 8 ∧ mayServe s p.pa 4 ∧ (⟨p.pa, 8, 0⟩ : Piece).inMemory s) ∧
    ((updated (old 0x80) (.arrive 1)).isSome = true ∧ updated (old 0) (.arrive 1) = none ∧ (updated (old 0x85) (.slotCount 3)).isSome = true ∧ updated (old 0) (.slotCount 3) = none ∧
      (updated (old 0) .retire).isSome = true ∧ (st 0x80).memOk = true ∧ mayServe (st 0x80) p.pa 16 ∧ p.inMemory (st 0x80)) ∧
    ((regRaw zero (barcfgAt .pod 0 15)).testBit 35 = false ∧ (regRaw e (barcfgAt .pod 0 15)).testBit 35 = true ∧ regRaw e (barcfgAt .pod 0 15) % 2 ^ 21 ≠ 0) := by
  simp only [sentUnder, sole, holds, mayServe, Piece.inMemory]; (repeat' apply And.intro) <;> decide +kernel
/-- LinksKeepCapsAndKeys: the idle slot of the last direction with a key and without; a switch with flits of its tick and without; an install that is late and not; a
replay of the flit before and of another; a network request of a core whose bytes stand and whose row is tested. -/
theorem test_witness_directions : let d (f : Link → Link) : State := { zero with links := [(31, f (linkAt zero 31))] }
    let r (n : Nat) : FlitRun := ⟨n, false, 0, 5, 1⟩
    let q (op : Nat) : NetRequest := ⟨6, 5, 1151, 0, op, 7, 64, 0x3FFFC0, 0, 0, 0, 0, 0, 0, 0, 0, 0, 0, 0, 0⟩
    let n (op : Nat) (t : List (MemPlace × Nat)) : State := { lastCore id id with net1 := ⟨[q op], 7, []⟩, health := ⟨t, [], []⟩ }
    let ps := [homeSpan (n 0 []) 0x3FFFC0 64]
    (idleKeyed (d id) 31 = false ∧ (linkAt (d id) 31).rotating = false ∧ idleKeyed (d (fun l => { l with slots := [some 1, some 2] })) 31 = true ∧
      (linkAt (d (fun l => { l with rotating := true })) 31).rotating = true) ∧
    ((linkAt (d (fun l => { l with flight := [r 0] })) 31).flight = r 0 :: [] ∧ (r 0).tick = zero.time / 315 ∧ ∀ x ∈ (linkAt (d (fun l => { l with flight := [r 9] })) 31).flight, x.tick ≠ zero.time / 315) ∧
    ((atTick 11999999 zero).time / 315 < (linkAt zero 31).installed + 12000000 ∧ (linkAt zero 31).installed + 12000000 ≤ (atTick 12000000 zero).time / 315) ∧
    ((linkAt (d (fun l => { l with flit := 3, replays := 15 })) 31).flit = 3 ∧ (linkAt (d (fun l => { l with flit := 3, replays := 15 })) 31).replays = 15 ∧
      (linkAt (d id) (31 % 16)).inService = true ∧ (linkAt (d (fun l => { l with flit := 3 })) 31).flit ≠ 4) ∧
    (2 ^ 40 ≤ (linkAt (d (fun l => { l with count := 2 ^ 40 - 5 })) 31).count + 5 ∧ (linkAt (d (fun l => { l with count := 2 ^ 40 - 5 })) 31).count < 2 ^ 40 ∧
      (linkAt (d (fun l => { l with count := 2 ^ 41 - 5 })) 31).count < 2 ^ 41) ∧
    (∀ op ∈ [0, 2], copyPieces (n op []) 1151 (coreAt (n op []) 1151).act (if op = 2 then .write else .read) (chunks ((q op).laddr.toNat + 0) 64) = .ok ps ∧
      requestAt (n op []) 1 6 = some (q op) ∧ netBehind (n op []) (q op) = false ∧ holds (n op []) 1151 5 ∧ (q op).csw = 0 ∧ erasedKey (n op []) ps = none ∧
      (∀ p ∈ ps, pkgOf p.pa = pkgId (n op []) ∧ inMotion (n op []) (localOf p.pa) p.len = false ∧ spanBad (n op []) (localOf p.pa) p.len = false ∧
        partialBad (n op []) (localOf p.pa) p.len = false ∧ p.inMemory (n op [])) ∧
      ∃ p ∈ ps, inMotion (n op [(.bank 1151 31, 127)]) (localOf p.pa) p.len = true) := by
  simp only [holds, Piece.inMemory]; (repeat' apply And.intro) <;> decide +kernel

end Sys2Proof.Tests
end

section
/-! SUPPORT. The values of the scalar instructions, said of bit vectors (R153 to R160). -/

namespace Sys2Proof.Machine

/-! ### Immediates (R128) -/

theorem ofInt_immS_eq_signed9 (m : BitVec 9) (s : State) : BitVec.ofInt 64 (immS 9 m.toNat s.core.slot) = Claims.signed9 m s :=
  ofInt_immS m s.core.slot

theorem ofNat_immZ_eq_unsigned9 (m : BitVec 9) (s : State) : BitVec.ofNat 64 (immZ 9 m.toNat s.core.slot) = Claims.unsigned9 m s :=
  ofNat_immZ m s.core.slot

theorem toBits_eq_toNat_ofInt (n : Nat) (x : Int) : toBits n x = (BitVec.ofInt n x).toNat := by
  rw [BitVec.toNat_ofInt, toBits]
  norm_cast

/-- R128, R154: XB widens a shift amount above the six bits that count. -/
theorem ofNat_immZ_mod_64 (m : BitVec 9) (s : State) : (BitVec.ofNat 64 (immZ 9 m.toNat s.core.slot)).toNat % 64 = m.toNat % 64 := by
  rw [BitVec.toNat_ofNat, immZ]
  split <;> omega

/-- R128, R153: XB widens the part that LIH appends. -/
theorem lih_value (a : W64) (i : BitVec 15) (s : State) :
    (a <<< (if s.core.slot.hdr then 19 else 15)) ||| BitVec.ofNat 64 (immZ 15 i.toNat s.core.slot) =
      BitVec.ofNat 64 (if s.core.slot.hdr then a.toNat * 2 ^ 19 + (s.core.slot.xb ++ i).toNat else a.toNat * 2 ^ 15 + i.toNat) := by
  rw [ofNat_immZ]
  split
  · exact shift_or a (s.core.slot.xb ++ i)
  · exact shift_or a i

/-! ### Sums and differences (R154) -/

theorem add_eq_ofInt (x y : W64) : x + y = BitVec.ofInt 64 (x.toInt + y.toInt) := by
  rw [BitVec.ofInt_add, BitVec.ofInt_toInt, BitVec.ofInt_toInt]

theorem ofInt_sub (n : Nat) (x y : Int) : BitVec.ofInt n (x - y) = BitVec.ofInt n x - BitVec.ofInt n y :=
  Int.cast_sub x y

theorem sub_eq_ofInt (x y : W64) : x - y = BitVec.ofInt 64 (x.toInt - y.toInt) := by
  rw [ofInt_sub, BitVec.ofInt_toInt, BitVec.ofInt_toInt]

theorem mul_eq_ofNat (x y : W64) : x * y = BitVec.ofNat 64 (x.toNat * y.toNat) := by
  rw [BitVec.ofNat_mul, BitVec.ofNat_toNat, BitVec.ofNat_toNat, BitVec.setWidth_eq, BitVec.setWidth_eq]

/-! ### Bit counts (R154) -/

theorem trailingZeros_takeWhile (x : W64) : trailingZeros x.toNat 0 64 = ((List.range 64).takeWhile (fun i => !x.getLsbD i)).length := by
  simp only [trailingZeros_eq x 0 64, Nat.zero_add, List.map_id']

/-! ### Divisions (R155) -/

/-- R155: the signed remainder is what the truncated quotient leaves, modulo 2^64. -/
theorem signed_remainder (x y : W64) :
    BitVec.ofInt 64 (x.toInt.tmod y.toInt) = x - y * BitVec.ofInt 64 (x.toInt.tdiv y.toInt) := by
  rw [Int.tmod_def, ofInt_sub, BitVec.ofInt_mul, BitVec.ofInt_toInt, BitVec.ofInt_toInt]

theorem unsigned_remainder (x y : W64) : BitVec.ofNat 64 (x.toNat % y.toNat) = x - y * (x / y) := by
  have h : y * (x / y) + x % y = x := by
    apply BitVec.eq_of_toNat_eq
    rw [BitVec.toNat_add, BitVec.toNat_mul, BitVec.toNat_udiv, BitVec.toNat_umod, Nat.mod_add_mod, Nat.div_add_mod, Nat.mod_eq_of_lt x.isLt]
  rw [← BitVec.umod_def]
  exact eq_sub_of_add_eq' h

theorem divs_value (x y : W64) : (if y == 0 then BitVec.allOnes 64 else BitVec.ofInt 64 (x.toInt.tdiv y.toInt)) =
    if y = 0 then -1 else BitVec.ofInt 64 (x.toInt.tdiv y.toInt) := by
  simp only [beq_iff_eq]
  rfl

theorem divu_value (x y : W64) : (if y == 0 then BitVec.allOnes 64 else BitVec.ofNat 64 (x.toNat / y.toNat)) =
    if y = 0 then 0xFFFFFFFFFFFFFFFF else x / y := by
  simp only [beq_iff_eq, BitVec.udiv_def]
  rfl

theorem rems_value (x y : W64) : (if y == 0 then x else BitVec.ofInt 64 (x.toInt.tmod y.toInt)) =
    if y = 0 then x else x - y * BitVec.ofInt 64 (x.toInt.tdiv y.toInt) := by
  simp only [beq_iff_eq, signed_remainder]

theorem remu_value (x y : W64) : (if y == 0 then x else BitVec.ofNat 64 (x.toNat % y.toNat)) =
    if y = 0 then x else x - y * (x / y) := by
  simp only [beq_iff_eq, unsigned_remainder]

/-! ### Bit fields (R160) -/

theorem fieldWid_eq (w : W64) : fieldWid w = 64 - (63 - w.toNat / 256 % 64) := by
  simp only [fieldWid, fld]
  omega

/-- R160: the field is the low bits of the shifted source; bits past bit 63 read as zero. -/
theorem fld_eq_setWidth (a : W64) (p n : Nat) : fld a.toNat p n = ((a >>> p).setWidth n).toNat := by
  rw [BitVec.toNat_setWidth, BitVec.toNat_ushiftRight, Nat.shiftRight_eq_div_pow, fld]

theorem shiftLeft_ushiftRight_eq_setWidth (x : W64) (k : Nat) : (x <<< k) >>> k = (x.setWidth (64 - k)).setWidth 64 := by
  apply BitVec.eq_of_getLsbD_eq
  intro i hi
  simp only [BitVec.getLsbD_ushiftRight, BitVec.getLsbD_shiftLeft, BitVec.getLsbD_setWidth, Nat.add_sub_cancel_left]
  grind

theorem shiftLeft_sshiftRight_eq_signExtend (x : W64) {k : Nat} (hk : k < 64) :
    (x <<< k).sshiftRight k = (x.setWidth (64 - k)).signExtend 64 := by
  apply BitVec.eq_of_getLsbD_eq
  intro i hi
  simp only [BitVec.getLsbD_sshiftRight, BitVec.getLsbD_signExtend, BitVec.getLsbD_shiftLeft, BitVec.getLsbD_setWidth, BitVec.msb_eq_getLsbD_last]
  grind

/-- R160: which bits of the destination BIN replaces. -/
theorem testBit_putFld (v lo len x i : Nat) :
    (putFld v lo len x).testBit i = if lo ≤ i ∧ i < lo + len then x.testBit (i - lo) else v.testBit i := by
  have h : putFld v lo len x = 2 ^ lo * (2 ^ len * (v / 2 ^ (lo + len)) + x % 2 ^ len) + v % 2 ^ lo := by
    rw [putFld, Nat.pow_add]
    ring
  rw [h, Nat.testBit_two_pow_mul_add _ (Nat.mod_lt _ (Nat.two_pow_pos lo)), Nat.testBit_two_pow_mul_add _ (Nat.mod_lt _ (Nat.two_pow_pos len)),
    Nat.testBit_mod_two_pow, Nat.testBit_mod_two_pow, Nat.testBit_div_two_pow]
  obtain hi | ⟨hl, hi⟩ | hi : i < lo ∨ (lo ≤ i ∧ i < lo + len) ∨ lo + len ≤ i := by omega
  · rw [if_pos hi, if_neg (by omega), decide_eq_true hi, Bool.true_and]
  · rw [if_neg (by omega), if_pos (by omega), if_pos ⟨hl, hi⟩, decide_eq_true (by omega), Bool.true_and]
  · rw [if_neg (by omega), if_neg (by omega), if_neg (by omega), show i - lo - len + (lo + len) = i by omega]

/-- R160: BIN replaces the bits under the field's mask, as far as bit 63. -/
theorem putFld_eq_masked (a d : W64) (p k : Nat) :
    BitVec.ofNat 64 (putFld d.toNat p (min (64 - k) (64 - p)) a.toNat) =
      (d &&& ~~~((BitVec.allOnes 64 >>> k) <<< p)) ||| ((a <<< p) &&& ((BitVec.allOnes 64 >>> k) <<< p)) := by
  apply BitVec.eq_of_getLsbD_eq
  intro i hi
  simp only [BitVec.getLsbD_ofNat, testBit_putFld, BitVec.testBit_toNat, BitVec.getLsbD_or, BitVec.getLsbD_and, BitVec.getLsbD_not,
    BitVec.getLsbD_shiftLeft, BitVec.getLsbD_ushiftRight, BitVec.getLsbD_allOnes]
  grind

theorem bxt_value (a b : W64) (x : BitVec 1) :
    (if x == 0 then BitVec.ofNat 64 (fld a.toNat (fieldPos b) (fieldWid b))
      else BitVec.ofInt 64 (signExt (fld a.toNat (fieldPos b) (fieldWid b)) (fieldWid b))) =
    if x = 0 then Claims.topField a b >>> (63 - b.toNat / 256 % 64) else (Claims.topField a b).sshiftRight (63 - b.toNat / 256 % 64) := by
  have hp : fieldPos b = b.toNat % 64 := by simp [fieldPos, fld]
  have hk : 63 - b.toNat / 256 % 64 < 64 := by omega
  simp only [beq_iff_eq]
  rw [fld_eq_setWidth, ofInt_signExt, BitVec.ofNat_toNat, fieldWid_eq, hp, Claims.topField, shiftLeft_ushiftRight_eq_setWidth,
    shiftLeft_sshiftRight_eq_signExtend _ hk]

theorem bin_value (a b d : W64) :
    BitVec.ofNat 64 (putFld d.toNat (fieldPos b) (min (fieldWid b) (64 - fieldPos b)) a.toNat) =
      (d &&& ~~~((BitVec.allOnes 64 >>> (63 - b.toNat / 256 % 64)) <<< (b.toNat % 64))) |||
        ((a <<< (b.toNat % 64)) &&& ((BitVec.allOnes 64 >>> (63 - b.toNat / 256 % 64)) <<< (b.toNat % 64))) := by
  have hp : fieldPos b = b.toNat % 64 := by simp [fieldPos, fld]
  rw [fieldWid_eq, hp, putFld_eq_masked]

/-! ### Selects and predicates (R135, R156 to R158) -/

theorem readP_iff (p : BitVec 3) (s : State) : readP p.toNat s = true ↔ p = 0 ∨ s.core.act.preds.getD p.toNat false = true := by
  rw [readP, Bool.or_eq_true, beq_iff_eq, ← BitVec.toNat_inj]
  rfl

theorem agen_value (x y : W64) (l : BitVec 3) (s : State) :
    x + BitVec.ofNat 64 (groupIdx l.toNat s).toNat * y = x + (s.core.act.group.idx.getD l.toNat 0).setWidth 64 * y := by
  rw [BitVec.ofNat_toNat, groupIdx]

/-- R157: the eight conditions. -/
theorem intCond_iff (c : BitVec 3) (a b : W64) : intCond c.toNat 64 a.toNat b.toNat = true ↔ Claims.condition c a b := by
  have hand : a.toNat &&& b.toNat = 0 ↔ a &&& b = 0 := by
    rw [← BitVec.toNat_and, ← BitVec.toNat_inj]; rfl
  obtain rfl | rfl | rfl | rfl | rfl | rfl | rfl | rfl :
      c = 0 ∨ c = 1 ∨ c = 2 ∨ c = 3 ∨ c = 4 ∨ c = 5 ∨ c = 6 ∨ c = 7 := by revert c; decide
  all_goals simp [intCond, Claims.condition, signExt_toNat, hand, BitVec.toNat_inj]

theorem logicBit_eq_predicateLogic (o : BitVec 3) (x y : Bool) : logicBit o.toNat x y = Claims.predicateLogic o x y := by
  revert o x y
  decide

end Sys2Proof.Machine
end

section
/-! SUPPORT. What the scalar instructions do when their operation is clear (R150 to R160). Each case names its arm of `exec`,
so that only that arm is unfolded. -/

namespace Sys2Proof.Machine

/-! ### The forms (R150, R154) -/

section Forms

variable {i : Instr} {s : State} {d a b : BitVec 6} {m : BitVec 9} {L : Nat} {v : W64}

theorem regForm_wrote {f : W64 → W64 → W64} (h : Clear i s) (hv : f (readS a.toNat s) (readS b.toNat s) = v) :
    ∃ t, regForm i d a b L f s = .next t ∧ WroteScalar d.toNat v L s t :=
  scalarOp_wrote h hv

theorem oneForm_wrote {f : W64 → W64} (h : Clear i s) (hv : f (readS a.toNat s) = v) :
    ∃ t, oneForm i d a L f s = .next t ∧ WroteScalar d.toNat v L s t :=
  scalarOp_wrote h hv

theorem immFormS_wrote {f : W64 → W64 → W64} (h : Clear i s) (hv : f (readS a.toNat s) (Claims.signed9 m s) = v) :
    ∃ t, immFormS i d a m f s = .next t ∧ WroteScalar d.toNat v 1 s t :=
  scalarOp_wrote h (by rw [ofInt_immS_eq_signed9, hv])

theorem immFormZ_wrote {f : W64 → W64 → W64} (h : Clear i s)
    (hv : f (readS a.toNat s) (BitVec.ofNat 64 (immZ 9 m.toNat s.core.slot)) = v) :
    ∃ t, immFormZ i d a m f s = .next t ∧ WroteScalar d.toNat v 1 s t :=
  scalarOp_wrote h hv

theorem predOp_wrote {p : BitVec 3} {f : State → Bool} (h : Clear i s) :
    ∃ t, checked i s (fun s => .next (writeP p.toNat (f s) L s)) = .next t ∧ WrotePred p.toNat (f s) L s t :=
  ⟨_, checked_of_clear h _, writeP_wrote _ _ _ _⟩

end Forms

/-! ### The groups of instructions (R153 to R156, R159, R160) -/

variable {i : Instr} {s : State} {d : BitVec 6} {v : W64} {L : Nat}

/-- R153: LI, LIH and MOV. -/
theorem exec_wrote_of_moveResult (h : Claims.moveResult s i = some (d, v, L)) (hc : Clear i s) :
    ∃ t, exec i s = .next t ∧ WroteScalar d.toNat v L s t := by
  unfold Claims.moveResult at h
  split at h <;> cases h
  · exact show ∃ t, execLi _ _ s = _ ∧ _ from scalarOp_wrote hc (ofInt_immS _ _)
  · exact show ∃ t, execLih _ _ s = _ ∧ _ from scalarOp_wrote hc (lih_value _ _ _)
  · exact show ∃ t, execMov _ _ s = _ ∧ _ from oneForm_wrote hc rfl

/-- R154: the integer, logic and bit-count instructions, in the order of the rule. -/
theorem exec_wrote_of_integerResult (h : Claims.integerResult s i = some (d, v, L)) (hc : Clear i s) :
    ∃ t, exec i s = .next t ∧ WroteScalar d.toNat v L s t := by
  unfold Claims.integerResult at h
  split at h <;> cases h
  · exact show ∃ t, execAdd _ _ _ s = _ ∧ _ from regForm_wrote hc (BitVec.add_def _ _)
  · exact show ∃ t, execAddi _ _ _ s = _ ∧ _ from immFormS_wrote hc (add_eq_ofInt _ _)
  · exact show ∃ t, execSub _ _ _ s = _ ∧ _ from regForm_wrote hc (sub_eq_ofInt _ _)
  · exact show ∃ t, execMul _ _ _ s = _ ∧ _ from regForm_wrote hc (mul_eq_ofNat _ _)
  · exact show ∃ t, execMulhs _ _ _ s = _ ∧ _ from regForm_wrote hc (mul_high_signed _ _)
  · exact show ∃ t, execMulhu _ _ _ s = _ ∧ _ from regForm_wrote hc (mul_high_unsigned _ _)
  · exact show ∃ t, execAnd _ _ _ s = _ ∧ _ from regForm_wrote hc rfl
  · exact show ∃ t, execAndi _ _ _ s = _ ∧ _ from immFormS_wrote hc rfl
  · exact show ∃ t, execOr _ _ _ s = _ ∧ _ from regForm_wrote hc rfl
  · exact show ∃ t, execOri _ _ _ s = _ ∧ _ from immFormZ_wrote hc (by rw [ofNat_immZ_eq_unsigned9])
  · exact show ∃ t, execXor _ _ _ s = _ ∧ _ from regForm_wrote hc rfl
  · exact show ∃ t, execXori _ _ _ s = _ ∧ _ from immFormZ_wrote hc (by rw [ofNat_immZ_eq_unsigned9])
  · exact show ∃ t, execAndn _ _ _ s = _ ∧ _ from regForm_wrote hc rfl
  · exact show ∃ t, execShl _ _ _ s = _ ∧ _ from regForm_wrote hc (shl_eq_mul _ _)
  · exact show ∃ t, execShli _ _ _ s = _ ∧ _ from immFormZ_wrote hc (by rw [ofNat_immZ_mod_64, shl_eq_mul])
  · exact show ∃ t, execShr _ _ _ s = _ ∧ _ from regForm_wrote hc (shr_eq_div _ _)
  · exact show ∃ t, execShri _ _ _ s = _ ∧ _ from immFormZ_wrote hc (by rw [ofNat_immZ_mod_64, shr_eq_div])
  · exact show ∃ t, execSra _ _ _ s = _ ∧ _ from regForm_wrote hc (sra_eq_div _ _)
  · exact show ∃ t, execSrai _ _ _ s = _ ∧ _ from immFormZ_wrote hc (by rw [ofNat_immZ_mod_64, sra_eq_div])
  · exact show ∃ t, execRor _ _ _ s = _ ∧ _ from regForm_wrote hc rfl
  · exact show ∃ t, execClz _ _ s = _ ∧ _ from oneForm_wrote hc (congrArg _ (leadingZeros_takeWhile _))
  · exact show ∃ t, execCtz _ _ s = _ ∧ _ from oneForm_wrote hc (congrArg _ (trailingZeros_takeWhile _))
  · exact show ∃ t, execPopc _ _ s = _ ∧ _ from oneForm_wrote hc (congrArg _ (popCount_eq _ 64))
  · exact show ∃ t, execMins _ _ _ s = _ ∧ _ from regForm_wrote hc (min_signed _ _)
  · exact show ∃ t, execMaxs _ _ _ s = _ ∧ _ from regForm_wrote hc (max_signed _ _)
  · exact show ∃ t, execMinu _ _ _ s = _ ∧ _ from regForm_wrote hc (min_unsigned _ _)
  · exact show ∃ t, execMaxu _ _ _ s = _ ∧ _ from regForm_wrote hc (max_unsigned _ _)

/-- R155: the divisions, whatever their operands. -/
theorem exec_wrote_of_divisionResult (h : Claims.divisionResult s i = some (d, v)) (hc : Clear i s) :
    ∃ t, exec i s = .next t ∧ WroteScalar d.toNat v 34 s t := by
  unfold Claims.divisionResult at h
  split at h <;> cases h
  · exact show ∃ t, execDivs _ _ _ s = _ ∧ _ from regForm_wrote hc (divs_value _ _)
  · exact show ∃ t, execDivu _ _ _ s = _ ∧ _ from regForm_wrote hc (divu_value _ _)
  · exact show ∃ t, execRems _ _ _ s = _ ∧ _ from regForm_wrote hc (rems_value _ _)
  · exact show ∃ t, execRemu _ _ _ s = _ ∧ _ from regForm_wrote hc (remu_value _ _)

/-- R156, R159, R160: SEL, AGEN, BXT and BIN. -/
theorem exec_wrote_of_selectResult (h : Claims.selectResult s i = some (d, v)) (hc : Clear i s) :
    ∃ t, exec i s = .next t ∧ WroteScalar d.toNat v 1 s t := by
  unfold Claims.selectResult at h
  split at h <;> cases h
  · exact show ∃ t, execSel _ _ _ _ s = _ ∧ _ from scalarOp_wrote hc (by simp only [readP_iff])
  · exact show ∃ t, execAgen _ _ _ _ s = _ ∧ _ from scalarOp_wrote hc (agen_value _ _ _ _)
  · exact show ∃ t, execBxt _ _ _ _ s = _ ∧ _ from scalarOp_wrote hc (bxt_value _ _ _)
  · exact show ∃ t, execBin _ _ _ s = _ ∧ _ from scalarOp_wrote hc (bin_value _ _ _)

end Sys2Proof.Machine
end

section
/-! SUPPORT. The words of the scalar instructions (R139, R155, R156, R158). -/

namespace Sys2Proof.Machine

/-- R139: an operation's word, from the operand bits its row gives. -/
theorem encode_eq_word {i : Instr} {u o x d a b m : Nat} (h : encodeFields i = some (u, o, x))
    (hx : x = d * 2 ^ 15 + a * 2 ^ 9 + b * 2 ^ 3 + m) : encode i = some (Claims.word u o d a b m) := by
  have hg : b2n false * 2 ^ 31 + u * 2 ^ 28 + o * 2 ^ 21 + x = u * 2 ^ 28 + o * 2 ^ 21 + d * 2 ^ 15 + a * 2 ^ 9 + b * 2 ^ 3 + m := by
    simp only [b2n, hx, Bool.false_eq_true, if_false]
    ring
  rw [encode, encodeSlot, h, Claims.word, ← hg]
  rfl

/-- R139: the operand fields of a register form with a low field of three bits. -/
theorem operand_lt (d a b : BitVec 6) (o : BitVec 3) : d.toNat * 2 ^ 15 + a.toNat * 2 ^ 9 + b.toNat * 2 ^ 3 + o.toNat < 2 ^ 21 := by
  omega

/-- R123, R139: the fields that the decoder finds in a word. -/
theorem decodeFields_word {u c d a b m : Nat} (hu : u < 8) (hc : c < 128) (hx : d * 2 ^ 15 + a * 2 ^ 9 + b * 2 ^ 3 + m < 2 ^ 21) :
    slotUnit (Claims.word u c d a b m) = u ∧ slotOpc (Claims.word u c d a b m) = c ∧
      slotOperand (Claims.word u c d a b m) = d * 2 ^ 15 + a * 2 ^ 9 + b * 2 ^ 3 + m := by
  have h : (Claims.word u c d a b m).toNat = u * 2 ^ 28 + c * 2 ^ 21 + (d * 2 ^ 15 + a * 2 ^ 9 + b * 2 ^ 3 + m) := by
    rw [Claims.word, BitVec.toNat_ofNat]
    omega
  rw [slotUnit, slotOpc, slotOperand, h]
  omega

/-- R158: PLOG names predicates, so the upper three bits of each of its specifiers are reserved. -/
theorem decodeS_plog_reserved (d a b : BitVec 6) (o : BitVec 3) (h : 8 ≤ d.toNat ∨ 8 ≤ a.toNat ∨ 8 ≤ b.toNat) :
    decodeS 0x2A (d.toNat * 2 ^ 15 + a.toNat * 2 ^ 9 + b.toNat * 2 ^ 3 + o.toNat) = .error .reserved := by
  refine if_neg ?_
  simp only [fixed, Bool.and_eq_true, beq_iff_eq]
  omega

theorem decodeSlot_plog_reserved (d a b : BitVec 6) (o : BitVec 3) (h : 8 ≤ d.toNat ∨ 8 ≤ a.toNat ∨ 8 ≤ b.toNat) :
    decodeSlot (Claims.word 0 0x2A d.toNat a.toNat b.toNat o.toNat) = .error .reserved := by
  obtain ⟨hu, hc, hx⟩ := decodeFields_word (u := 0) (c := 0x2A) (by decide) (by decide) (operand_lt d a b o)
  rw [decodeSlot, hu, hc, hx]
  show (decodeS 0x2A _).map _ = _
  rw [decodeS_plog_reserved d a b o h]
  rfl

end Sys2Proof.Machine
end

section
/-! O2: the scalar instructions write their results. -/

open Sys2Proof Sys2Proof.Machine

namespace Sys2Proof.Proofs

/-- R157: CMP. -/
theorem exec_cmp_wrote {c p : BitVec 3} {a b : BitVec 6} {s : State} (h : Clear (.cmp c p a b) s) :
    ∃ t r, exec (.cmp c p a b) s = .next t ∧ (r = true ↔ Claims.condition c (readS a.toNat s) (readS b.toNat s)) ∧
      WrotePred p.toNat r 1 s t := by
  obtain ⟨t, ht, hw⟩ := show ∃ t, execCmp c p a b s = .next t ∧ _ from predOp_wrote h
  exact ⟨t, _, ht, intCond_iff _ _ _, hw⟩

/-- R157: CMPI compares with its signed immediate. -/
theorem exec_cmpi_wrote {c p : BitVec 3} {a : BitVec 6} {m : BitVec 9} {s : State} (h : Clear (.cmpi c p a m) s) :
    ∃ t r, exec (.cmpi c p a m) s = .next t ∧ (r = true ↔ Claims.condition c (readS a.toNat s) (Claims.signed9 m s)) ∧
      WrotePred p.toNat r 1 s t := by
  obtain ⟨t, ht, hw⟩ := show ∃ t, execCmpi c p a m s = .next t ∧ _ from predOp_wrote h
  rw [toBits_eq_toNat_ofInt, ofInt_immS_eq_signed9] at hw
  exact ⟨t, _, ht, intCond_iff _ _ _, hw⟩

/-- R158: PLOG. -/
theorem exec_plog_wrote {d a b o : BitVec 3} {s : State} (h : Clear (.plog d a b o) s) :
    ∃ t, exec (.plog d a b o) s = .next t ∧
      WrotePred d.toNat (Claims.predicateLogic o (readP a.toNat s) (readP b.toNat s)) 1 s t := by
  rw [← logicBit_eq_predicateLogic]
  exact show ∃ t, execPlog d a b o s = .next t ∧ _ from predOp_wrote h

/-- Settles O2: each group of scalar instructions writes the value or predicate of its rule, and the encoder and decoder agree
on the words of the divisions, SEL and PLOG. -/
theorem scalarResultsAndPredicatesAreWritten : Obligations.ScalarResultsAndPredicatesAreWritten := by
  unfold Obligations.ScalarResultsAndPredicatesAreWritten
  refine ⟨?values, fun s => ⟨fun _ _ _ _ => exec_cmp_wrote, fun _ _ _ _ => exec_cmpi_wrote, fun _ _ _ _ => exec_plog_wrote⟩,
    ?words, ?plogWord, decodeSlot_plog_reserved⟩
  case values =>
    rintro i s d v L (h | h | ⟨h, rfl⟩ | ⟨h, rfl⟩) hc
    · exact exec_wrote_of_moveResult h hc
    · exact exec_wrote_of_integerResult h hc
    · exact exec_wrote_of_divisionResult h hc
    · exact exec_wrote_of_selectResult h hc
  case words =>
    intro d a b p
    have hregs : sh d 15 + sh a 9 + sh b 3 = d.toNat * 2 ^ 15 + a.toNat * 2 ^ 9 + b.toNat * 2 ^ 3 + 0 := by simp only [sh, Nat.add_zero]
    exact ⟨encode_eq_word rfl hregs, encode_eq_word rfl hregs, encode_eq_word rfl hregs, encode_eq_word rfl hregs,
      encode_eq_word rfl (by simp [sh])⟩
  case plogWord =>
    exact fun d a b o => encode_eq_word rfl (by simp [sh])

end Sys2Proof.Proofs
end

section
/-! SUPPORT. Flags and tags of vector instructions (R131, R194 to R199, R351, R354). -/

namespace Sys2Proof.Machine

/-! ### Flags (R138, R196, R354) -/

/-- R354: no flag of `fl` is enabled. -/
def NoFlagTrap (fl : Nat) (s : State) : Prop := ∀ n < 5, bit s.core.act.fen n = true → bit fl n = false

theorem testBit_foldl_or {α : Type} (g : α → Nat) (l : List α) (n i : Nat) :
    (l.foldl (fun r x => r ||| g x) n).testBit i = (n.testBit i || l.any (fun x => (g x).testBit i)) := by
  induction l generalizing n with
  | nil => simp
  | cons x l ih => simp [ih, Bool.or_assoc]

/-- R196: the flags that a lane raises. -/
theorem elementwise_flags (k : Nat) (m : BitVec 64) (f : Nat → Nat × Nat) :
    (elementwise k m f).2 = (List.range 64).map (fun l =>
      (l, orFlags (if laneOn m l then (List.range k).map (fun j => f (l * k + j)) else []))) := by
  refine List.map_congr_left fun l hl => ?_
  simp [List.getD_eq_getElem?_getD, List.mem_range.1 hl]

/-- R196: the flags of an element-by-element result are those of its enabled elements. -/
theorem allFlags_elementwise {k : Nat} (hk : 0 < k) (m : BitVec 64) (f : Nat → Nat × Nat) :
    allFlags (elementwise k m f).2 = flagsOver (enabledElems k m) (fun e => (f e).2) := by
  apply Nat.eq_of_testBit_eq
  intro i
  have hlane (l : Nat) : (orFlags (if laneOn m l then (List.range k).map (fun j => f (l * k + j)) else [])).testBit i = true ↔
      laneOn m l = true ∧ ∃ j < k, (f (l * k + j)).2.testBit i = true := by
    rw [orFlags, testBit_foldl_or]
    split <;> simp [*]
  have hleft : (allFlags (elementwise k m f).2).testBit i = true ↔
      ∃ l < 64, laneOn m l = true ∧ ∃ j < k, (f (l * k + j)).2.testBit i = true := by
    simp [allFlags, testBit_foldl_or, elementwise_flags, hlane]
  have hright : (flagsOver (enabledElems k m) (fun e => (f e).2)).testBit i = true ↔
      ∃ e < 64 * k, laneOn m (e / k) = true ∧ (f e).2.testBit i = true := by
    simp [flagsOver, testBit_foldl_or, enabledElems]
  rw [Bool.eq_iff_iff, hleft, hright]
  constructor
  · rintro ⟨l, hl, hon, j, hj, hf⟩
    have hdiv : (l * k + j) / k = l := by rw [Nat.mul_comm, Nat.mul_add_div hk, Nat.div_eq_of_lt hj, Nat.add_zero]
    exact ⟨l * k + j, (Nat.div_lt_iff_lt_mul hk).1 (by rwa [hdiv]), by rwa [hdiv], hf⟩
  · rintro ⟨e, he, hon, hf⟩
    exact ⟨e / k, (Nat.div_lt_iff_lt_mul hk).2 he, hon, e % k, Nat.mod_lt e hk, by rwa [Nat.div_add_mod']⟩

theorem firstEnabled_eq_none {fen fl : Nat} (h : ∀ n < 5, bit fen n = true → bit fl n = false) : firstEnabled fen fl = none := by
  refine List.find?_eq_none.2 fun n hn => ?_
  have hn5 : n < 5 := by simp only [List.mem_cons, List.not_mem_nil, or_false] at hn; omega
  cases hb : bit fen n with
  | false => simp
  | true => simp [h n hn5 hb]

/-- R196, R354: with no raised flag enabled an arithmetic instruction sets its flags and writes its result. -/
theorem arith_of_noFlagTrap {L : Nat} {fl : List (Nat × Nat)} {s : State} (h : NoFlagTrap (allFlags fl) s) (k : State → State) :
    arith L fl s k = k (flagged (allFlags fl) L s) := by
  unfold arith flagged
  rw [firstEnabled_eq_none h]

theorem flagWait_cycle (L : Nat) (s : State) : (flagWait L s).core.cycle = s.core.cycle := by
  unfold flagWait
  split <;> rfl

theorem flagged_cycle (fl L : Nat) (s : State) : (flagged fl L s).core.cycle = s.core.cycle := by
  rw [flagged, flagWait_cycle, modAct_core_cycle]

/-! ### Tags (R197, R351) -/

theorem reservedTag_eq_none {l : List (Nat × Nat)} (h : ∀ p ∈ l, p.2 < 13) : reservedTag l = none := by
  simpa [reservedTag] using h

/-- R197, R351: sources whose tags are equal and accepted by their role raise no cause. -/
theorem tagFault_eq_none {accept : Option (List Nat)} {l : List (Nat × Nat)}
    (h : ∀ p ∈ l, p.2 < 13 ∧ (∀ a, accept = some a → p.2 ∈ a) ∧ ∀ q ∈ l, q.2 = p.2) : tagFault accept l = none := by
  have haccepted : (accept.bind fun a => notAccepted a l) = none := by
    cases accept with
    | none => rfl
    | some a => simpa [notAccepted] using fun sp tag hp => (h (sp, tag) hp).2.1 a rfl
  have hequal : unequalTags l = none := by
    cases l with
    | nil => rfl
    | cons p r => simpa [unequalTags] using fun sp tag hq => (h p List.mem_cons_self).2.2 (sp, tag) (List.mem_cons_of_mem _ hq)
  rw [tagFault, haccepted, hequal, reservedTag_eq_none fun p hp => (h p hp).1]
  rfl

/-- R131: the cycle that reading the other cluster adds. -/
theorem otherCycle_eq_crossing (l : List (BitVec 6)) : otherCycle (l.map BitVec.toNat) = Claims.crossing l := by
  simp [otherCycle, Claims.crossing]

/-- A clear operation whose sources raise no tag cause has its own effect. -/
theorem checked_orTrap_of_clear {i : Instr} {s : State} (h : Clear i s) {o : State → Option (BitVec 8 × W64)} (ho : o s = none)
    (k : State → State → Out) : checked i s (fun s => orTrap (o s) s (k s)) = k s s := by
  rw [checked_of_clear h, ho, orTrap]

/-! ### Selectors -/

/-- The values of a selector of three bits: a condition, a pattern or an operation. -/
theorem bitVec_three_cases (c : BitVec 3) : c = 0 ∨ c = 1 ∨ c = 2 ∨ c = 3 ∨ c = 4 ∨ c = 5 ∨ c = 6 ∨ c = 7 := by
  revert c
  decide

end Sys2Proof.Machine
end

section
/-! SUPPORT. What the shapes of vector instructions do when their operation is clear and their tags are good (R194 to R205, R208, R214). -/

open Sys2Proof.Claims

namespace Sys2Proof.Machine

/-- The flags that a form raises. -/
def formFlags (f : VectorForm) : Nat := flagsOver (enabledElems f.k f.m) f.flags

/-- R194, R195: an outcome is the next state in which the form's destination has its enabled elements, its tag and its flags. -/
def WrittenBy (f : VectorForm) (s : State) (o : Out) : Prop :=
  ∃ r t, o = .next t ∧ elementsAre r f.k f.m f.value ∧ r.tag = f.tag ∧
    WroteVector f.v f.d.toNat f.m r (some (s.core.cycle + f.L)) (if f.fp = true then flagged (formFlags f) f.L s else s) t

/-! ### Elements (R72, R202) -/

theorem el_lt (r : VReg) (k e : Nat) : r.el k e < 2 ^ (32 / k) := Nat.mod_lt _ (Nat.two_pow_pos _)

/-- R202: a field of an element as a signed number. -/
theorem signExt_eq_toInt {w x : Nat} (hx : x < 2 ^ w) : signExt x w = (BitVec.ofNat w x).toInt := by
  have h := signExt_toNat (BitVec.ofNat w x)
  rwa [BitVec.toNat_ofNat, Nat.mod_eq_of_lt hx] at h

theorem intOf_eq_integer (s : State) {w x : Nat} (hx : x < 2 ^ w) : intOf (bit s.core.slot.xb.toNat 1) w x = integer s w x := by
  rw [intOf, integer, bit_toNat, signExt_eq_toInt hx]

theorem narrow_eq_narrowed (s : State) (w : Nat) (x : Int) :
    narrow (bit s.core.slot.xb.toNat 0) (bit s.core.slot.xb.toNat 1) w x = narrowed s w x := by
  simp only [narrow, narrowed, bit_toNat, toBits, satU, satS]
  cases s.core.slot.xb.getLsbD 1 <;> rfl

/-- R194: the elements that an element-by-element result has. -/
theorem elementsAre_elementwise {k : Nat} (hk : k = 1 ∨ k = 2 ∨ k = 4) (m : BitVec 64) (tag : Nat) {g : Nat → Nat × Nat} {value : Nat → Nat}
    (hg : ∀ e, (g e).1 = value e) : elementsAre ⟨(elementwise k m g).1, tag⟩ k m value := fun e he hm => by
  rw [el_elementwise k hk m g tag e he hm, hg]

/-- R194: the lanes that a lane-by-lane result has. -/
theorem elementsAre_of_lane {r : VReg} {m : BitVec 64} {value : Nat → Nat} (h : ∀ l < 64, (r.lane l).toNat = value l) :
    elementsAre r 1 m value := fun l hl _ => by
  rw [el_one, ← h l (by omega)]
  exact (Nat.mod_eq_of_lt (r.lane l).isLt).symm

/-! ### The two ways of writing a result (R195, R196) -/

variable {f : VectorForm} {s : State} {L : Nat}

theorem fpResult_written (hfp : f.fp = true) (hL : L = f.L) (hk : f.k = 1 ∨ f.k = 2 ∨ f.k = 4) (hq : NoFlagTrap (formFlags f) s) :
    WrittenBy f s (fpResult f.v f.d f.m f.tag L (elementwise f.k f.m (fun e => (f.value e, f.flags e))) s) := by
  have hfl : allFlags (elementwise f.k f.m (fun e => (f.value e, f.flags e))).2 = formFlags f := allFlags_elementwise (by omega) _ _
  subst hL
  rw [← hfl] at hq
  rw [fpResult, arith_of_noFlagTrap hq, hfl]
  refine ⟨_, _, rfl, elementsAre_elementwise (g := fun e => (f.value e, f.flags e)) hk _ _ (fun _ => rfl), rfl, ?_⟩
  rw [if_pos hfp, ← flagged_cycle (formFlags f) f.L s]
  exact writeVDue_wrote _ _ _ _ _ _

theorem laneResult_written {r : List W32} (hfp : f.fp = false) (hL : L = f.L) (hr : elementsAre ⟨r, f.tag⟩ f.k f.m f.value) :
    WrittenBy f s (laneResult f.v f.d f.m f.tag L r s) := by
  subst hL
  refine ⟨_, _, rfl, hr, rfl, ?_⟩
  rw [hfp, if_neg Bool.false_ne_true]
  exact writeVDue_wrote _ _ _ _ _ _

/-- A clear instruction without tag causes does what its form says when its result does. -/
theorem checked_written {i : Instr} (hc : Clear i s) {o : State → Option (BitVec 8 × W64)} {k : State → State → Out} (ho : o s = none)
    (hw : WrittenBy f s (k s s)) : WrittenBy f s (checked i s (fun s => orTrap (o s) s (k s))) := by
  rwa [checked_orTrap_of_clear hc ho]

/-! ### The shapes (R200 to R203, R208) -/

variable {i : Instr} {v : Cluster} {d a b : BitVec 6} {m : BitVec 3}

theorem fp2_written {tags : List Nat} {g : Fmt → Nat → Nat → Nat × Nat} (hc : Clear i s) (ht : (fp2Form s v d a b m tags L g).tagsGood)
    (hq : NoFlagTrap (formFlags (fp2Form s v d a b m tags L g)) s) :
    WrittenBy (fp2Form s v d a b m tags L g) s (fp2 i v d a b m tags L g s) :=
  checked_written hc (tagFault_eq_none ht.1)
    (fpResult_written rfl (congrArg (L + ·) (otherCycle_eq_crossing [a, b])) (perLane_cases _) hq)

theorem fp1_written {tags : List Nat} {g : Fmt → Nat → Nat × Nat} (hc : Clear i s) (ht : (fp1Form s v d a m tags L g).tagsGood)
    (hq : NoFlagTrap (formFlags (fp1Form s v d a m tags L g)) s) :
    WrittenBy (fp1Form s v d a m tags L g) s (fp1 i v d a m tags L g s) :=
  checked_written hc (tagFault_eq_none ht.1)
    (fpResult_written rfl (congrArg (L + ·) (otherCycle_eq_crossing [a])) (perLane_cases _) hq)

theorem fp3_written {g : Fmt → Num → Num → Num → Nat × Nat} (hc : Clear i s) (ht : (fmaForm s v d a b m g).tagsGood)
    (hq : NoFlagTrap (formFlags (fmaForm s v d a b m g)) s) : WrittenBy (fmaForm s v d a b m g) s (fp3 i v d a b m g s) :=
  checked_written hc (tagFault_eq_none ht.1)
    (fpResult_written rfl (congrArg (5 + ·) (otherCycle_eq_crossing [a, b])) (perLane_cases _) hq)

theorem int3_written {acc : Bool} {g : Int → Int → Int → Int} (hc : Clear i s) (ht : (intForm s v d a b m acc L g).tagsGood) :
    WrittenBy (intForm s v d a b m acc L g) s (int3 i v d a b m acc L g s) :=
  checked_written hc (tagFault_eq_none ht.1)
    (laneResult_written rfl (congrArg (L + ·) (otherCycle_eq_crossing [a, b]))
      (elementsAre_elementwise (perLane_cases _) _ _ fun e => by
        simp only [narrow_eq_narrowed, elemBits, intOf_eq_integer s (el_lt _ _ e), intForm]))

theorem shift2_written {g h : Nat → Nat → Nat → Nat} (hc : Clear i s) (ht : (shiftForm s v d a b m h).tagsGood)
    (hg : ∀ w x n, x < 2 ^ w → g w x n = h w x n) : WrittenBy (shiftForm s v d a b m h) s (shift2 i v d a b m g s) :=
  checked_written hc (tagFault_eq_none ht.1)
    (laneResult_written rfl (congrArg (1 + ·) (otherCycle_eq_crossing [a, b]))
      (elementsAre_elementwise (perLane_cases _) _ _ fun e => hg _ _ _ (el_lt _ _ e)))

theorem lanewise_written {g : Nat → W32} (hfp : f.fp = false) (hL : L = f.L) (hk : f.k = 1) (hv : ∀ l < 64, (g l).toNat = f.value l) :
    WrittenBy f s (laneResult f.v f.d f.m f.tag L (lanewise g) s) := by
  refine laneResult_written hfp hL ?_
  rw [hk]
  exact elementsAre_of_lane fun l hl => by rw [lane_lanewise g _ l hl, hv l hl]

theorem logic2_written {g : W32 → W32 → W32} (hc : Clear i s) (ht : (logicForm s v d a b m g).tagsGood) :
    WrittenBy (logicForm s v d a b m g) s (logic2 i v d a b m g s) :=
  have htags : ∀ p ∈ [source s a (readV v a.toNat s), source s b (readV v b.toNat s)], p.2 < 13 :=
    List.forall_mem_cons.2 ⟨(ht.1 _ List.mem_cons_self).1, ht.2⟩
  checked_written hc (reservedTag_eq_none htags)
    (lanewise_written rfl (congrArg (1 + ·) (otherCycle_eq_crossing [a, b])) rfl fun _ _ => rfl)

theorem lane1_written {mk : State → BitVec 64} {g : VReg → Nat → W32} (hc : Clear i s)
    (ht : (lanesForm v d (mk s) [source s a (readV v a.toNat s)] (readV v a.toNat s).tag (L + crossing [a]) (g (readV v a.toNat s))).tagsGood) :
    WrittenBy (lanesForm v d (mk s) [source s a (readV v a.toNat s)] (readV v a.toNat s).tag (L + crossing [a]) (g (readV v a.toNat s))) s
      (lane1 i v d a mk L id g s) :=
  checked_written hc (tagFault_eq_none ht.1) (lanewise_written rfl (congrArg (L + ·) (otherCycle_eq_crossing [a])) rfl fun _ _ => rfl)

/-- R214: the patterns of VSHUF; pattern 7 swaps the halves by bit 5 of the lane. -/
theorem shufLane_eq_shuffled (p : BitVec 3) (x y : VReg) {l : Nat} (hl : l < 64) : shufLane p.toNat x y l = shuffled p x y l := by
  have hswap : l ^^^ 32 = (l + 32) % 64 := by revert l; decide
  obtain rfl | rfl | rfl | rfl | rfl | rfl | rfl | rfl := bitVec_three_cases p
  case inr.inr.inr.inr.inr.inr.inr => exact congrArg x.lane hswap
  case inl | inr.inl =>
    simp only [shufLane, shuffled, beq_iff_eq, apply_ite VReg.lane, ite_apply]
    rfl
  all_goals rfl

/-- R214: the patterns that interleave, pick or shift A and B. -/
theorem vshuf_two_written {p : BitVec 3} (hp : p.toNat < 6) (hc : Clear (.vshuf v d a b p) s)
    (h : laneForm s (.vshuf v d a b p) = some f) (ht : f.tagsGood) : WrittenBy f s (execVshuf v d a b p s) := by
  obtain rfl := Option.some.inj ((if_pos hp).symm.trans h)
  unfold execVshuf
  simp only [hp, decide_true, if_true]
  exact checked_written hc (tagFault_eq_none ht.1) (lanewise_written rfl (congrArg (2 + ·) (otherCycle_eq_crossing [a, b])) rfl
    fun l hl => congrArg BitVec.toNat (shufLane_eq_shuffled p _ _ hl))

/-- R214: the patterns that take A alone. -/
theorem vshuf_one_written {p : BitVec 3} (hp : ¬p.toNat < 6) (hc : Clear (.vshuf v d a b p) s)
    (h : laneForm s (.vshuf v d a b p) = some f) (ht : f.tagsGood) : WrittenBy f s (execVshuf v d a b p s) := by
  obtain rfl := Option.some.inj ((if_neg hp).symm.trans h)
  unfold execVshuf
  simp only [hp, decide_false]
  exact checked_written hc (tagFault_eq_none ht.1) (lanewise_written rfl (congrArg (2 + ·) (otherCycle_eq_crossing [a])) rfl
    fun l hl => congrArg BitVec.toNat (shufLane_eq_shuffled p _ _ hl))

/-- R205: VSEL takes each lane of A or of B by the mask. -/
theorem vsel_written (hc : Clear (.vsel v d a b m) s) (h : laneForm s (.vsel v d a b m) = some f) (ht : f.tagsGood) :
    WrittenBy f s (execVsel v d a b m s) := by
  cases h
  exact checked_written hc (tagFault_eq_none ht.1) (lanewise_written rfl (congrArg (1 + ·) (otherCycle_eq_crossing [a, b])) rfl
    fun l _ => by rw [laneOn_eq]; rfl)

/-- R214: VIOTA. -/
theorem viota_written (hc : Clear (.viota v d a b m) s) (h : laneForm s (.viota v d a b m) = some f) :
    WrittenBy f s (execViota v d a b m s) := by
  cases h
  rw [execViota, checked_of_clear hc]
  exact lanewise_written rfl rfl rfl fun _ _ => rfl

/-- R209: the histogram as a register. -/
theorem vhclrRd_written (hc : Clear (.vhclrRd v d) s) (h : laneForm s (.vhclrRd v d) = some f) : WrittenBy f s (execVhclrRd v d s) := by
  cases h
  rw [execVhclrRd, checked_of_clear hc]
  exact laneResult_written rfl rfl (elementsAre_of_lane fun _ _ => rfl)

/-! ### The instructions, in the order of the forms -/

/-- R200 to R203. -/
theorem exec_written_of_elementForm (h : elementForm s i = some f) (hc : Clear i s) (ht : f.tagsGood) (hq : NoFlagTrap (formFlags f) s) :
    WrittenBy f s (exec i s) := by
  unfold elementForm at h
  split at h <;> cases h
  · exact show WrittenBy _ s (execVadd _ _ _ _ _ s) from fp2_written hc ht hq
  · exact show WrittenBy _ s (execVsub _ _ _ _ _ s) from fp2_written hc ht hq
  · exact show WrittenBy _ s (execVmul _ _ _ _ _ s) from fp2_written hc ht hq
  · exact show WrittenBy _ s (execVmin _ _ _ _ _ s) from fp2_written hc ht hq
  · exact show WrittenBy _ s (execVmax _ _ _ _ _ s) from fp2_written hc ht hq
  · exact show WrittenBy _ s (execVfma _ _ _ _ _ s) from fp3_written hc ht hq
  · exact show WrittenBy _ s (execVfms _ _ _ _ _ s) from fp3_written hc ht hq
  · exact show WrittenBy _ s (execVfnma _ _ _ _ _ s) from fp3_written hc ht hq
  · exact show WrittenBy _ s (execVabs _ _ _ _ s) from fp1_written hc ht hq
  · exact show WrittenBy _ s (execVneg _ _ _ _ s) from fp1_written hc ht hq
  · exact show WrittenBy _ s (execVrcp _ _ _ _ s) from fp1_written hc ht hq
  · exact show WrittenBy _ s (execVrsq _ _ _ _ s) from fp1_written hc ht hq
  · exact show WrittenBy _ s (execVexp2 _ _ _ _ s) from fp1_written hc ht hq
  · exact show WrittenBy _ s (execVlog2 _ _ _ _ s) from fp1_written hc ht hq
  · exact show WrittenBy _ s (execViadd _ _ _ _ _ s) from int3_written hc ht
  · exact show WrittenBy _ s (execVisub _ _ _ _ _ s) from int3_written hc ht
  · exact show WrittenBy _ s (execVimul _ _ _ _ _ s) from int3_written hc ht
  · exact show WrittenBy _ s (execVimad _ _ _ _ _ s) from int3_written hc ht
  · exact show WrittenBy _ s (execVimin _ _ _ _ _ s) from int3_written hc ht
  · exact show WrittenBy _ s (execVimax _ _ _ _ _ s) from int3_written hc ht
  · exact show WrittenBy _ s (execVshl _ _ _ _ _ s) from shift2_written hc ht fun _ _ _ _ => rfl
  · exact show WrittenBy _ s (execVshr _ _ _ _ _ s) from shift2_written hc ht fun _ _ _ _ => rfl
  · exact show WrittenBy _ s (execVsra _ _ _ _ _ s) from shift2_written hc ht fun _ _ _ hx => by rw [toBits, signExt_eq_toInt hx]

/-- R203, R205, R208, R209, R214. -/
theorem exec_written_of_laneForm (h : laneForm s i = some f) (hc : Clear i s) (ht : f.tagsGood) : WrittenBy f s (exec i s) := by
  have hform := h
  unfold laneForm at h
  split at h
  · cases h; exact show WrittenBy _ s (execVand _ _ _ _ _ s) from logic2_written hc ht
  · cases h; exact show WrittenBy _ s (execVor _ _ _ _ _ s) from logic2_written hc ht
  · cases h; exact show WrittenBy _ s (execVxor _ _ _ _ _ s) from logic2_written hc ht
  · cases h; exact show WrittenBy _ s (execVnot _ _ _ _ s) from lane1_written hc ht
  · exact show WrittenBy _ s (execVsel _ _ _ _ _ s) from vsel_written hc hform ht
  · cases h; exact show WrittenBy _ s (execVmov _ _ _ _ s) from lane1_written hc ht
  · cases h; exact show WrittenBy _ s (execVxfer _ _ _ _ s) from lane1_written hc ht
  · next p =>
    show WrittenBy _ s (execVshuf _ _ _ _ _ s)
    by_cases hp : p.toNat < 6
    · exact vshuf_two_written hp hc hform ht
    · exact vshuf_one_written hp hc hform ht
  · cases h; exact show WrittenBy _ s (execVbcastL _ _ _ _ s) from lane1_written (mk := fun _ => BitVec.allOnes 64) hc ht
  · exact show WrittenBy _ s (execViota _ _ _ _ _ s) from viota_written hc hform
  · exact show WrittenBy _ s (execVhclrRd _ _ s) from vhclrRd_written hc hform
  · cases h

end Sys2Proof.Machine
end

section
/-! O22: the vector instructions write their elements. -/

open Sys2Proof Sys2Proof.Machine

namespace Sys2Proof.Proofs

/-- Settles O22: every instruction of a form writes what its form says, shape by shape; VSEL's word is the encoder's. -/
theorem vectorElementsGetTheirResult : Obligations.VectorElementsGetTheirResult := by
  unfold Obligations.VectorElementsGetTheirResult
  refine ⟨fun v d a b k => encode_eq_word rfl (by simp [sh]), ?results⟩
  case results =>
    rintro i s f (h | h) hc ht fl hq
    · exact exec_written_of_elementForm h hc ht hq
    · exact exec_written_of_laneForm h hc ht

end Sys2Proof.Proofs
end

section
/-! SUPPORT. Mask instructions: the conditions of compares and the mask logic, said of lanes, and the masks that are refused
(R135, R157, R158, R204, R215). -/

open Sys2Proof.Claims

namespace Sys2Proof.Machine

/-! ### Conditions (R157, R204) -/

theorem isNan_of_isSnan {x : Num} (h : x.isSnan = true) : x.isNan = true := by
  cases x with
  | nan _ => rfl
  | inf _ => cases h
  | fin _ _ _ => cases h

/-- R204: the condition of VCMP. -/
theorem fcmp_fst_iff (c : BitVec 3) (x y : Num) : (fcmp c.toNat x y).1 = true ↔ floatCondition c (x.isNan || y.isNan) (cmpNum x y) := by
  generalize hu : (x.isNan || y.isNan) = u
  obtain rfl | rfl | rfl | rfl | rfl | rfl | rfl | rfl := bitVec_three_cases c
  all_goals simp [fcmp, floatCondition, hu]

/-- R157: the flag of VCMP. -/
theorem fcmp_snd (c : BitVec 3) (x y : Num) : (fcmp c.toNat x y).2 = floatConditionFlags c x y := by
  have hs : (x.isSnan || y.isSnan) = true → (x.isNan || y.isNan) = true := by
    simpa using Or.imp isNan_of_isSnan isNan_of_isSnan
  unfold floatConditionFlags
  generalize hu : (x.isNan || y.isNan) = u at hs
  generalize hn : (x.isSnan || y.isSnan) = n at hs
  obtain rfl | rfl | rfl | rfl | rfl | rfl | rfl | rfl := bitVec_three_cases c
  all_goals simp [fcmp, hu, hn, and_iff_right_of_imp hs, or_iff_right_of_imp hs]

/-- R204: the condition of VICMP on two elements. -/
theorem intCond_iff_elementCondition (c : BitVec 3) {w x y : Nat} (hx : x < 2 ^ w) (hy : y < 2 ^ w) :
    intCond c.toNat w x y = true ↔ elementCondition c w x y := by
  obtain rfl | rfl | rfl | rfl | rfl | rfl | rfl | rfl := bitVec_three_cases c
  all_goals simp [intCond, elementCondition, signExt_eq_toInt hx, signExt_eq_toInt hy]

/-! ### Computed masks (R204) -/

theorem foldl_add_two_pow (p : Nat → Bool) (n : Nat) :
    (List.range n).foldl (fun r l => if p l then r + 2 ^ l else r) 0 < 2 ^ n ∧
      ∀ l < n, ((List.range n).foldl (fun r l => if p l then r + 2 ^ l else r) 0).testBit l = p l := by
  induction n with
  | zero => simp
  | succ n ih =>
    obtain ⟨hlt, hbit⟩ := ih
    rw [List.range_succ, List.foldl_append]
    generalize (List.range n).foldl (fun r l => if p l then r + 2 ^ l else r) 0 = x at hlt hbit
    have hpow : 2 ^ (n + 1) = 2 ^ n + 2 ^ n := by rw [Nat.pow_succ, Nat.mul_two]
    refine ⟨?_, fun l hl => ?_⟩
    · simp only [List.foldl_cons, List.foldl_nil]
      split <;> omega
    · obtain hl | rfl := Nat.lt_succ_iff_lt_or_eq.1 hl
      · rw [← hbit l hl]
        simp only [List.foldl_cons, List.foldl_nil]
        split
        · rw [Nat.add_comm, Nat.testBit_two_pow_add_gt hl]
        · rfl
      · simp only [List.foldl_cons, List.foldl_nil]
        cases hp : p l
        · simpa using Nat.testBit_lt_two_pow hlt
        · simp [Nat.add_comm x, Nat.testBit_two_pow_add_eq, Nat.testBit_lt_two_pow hlt]

/-- R204: a lane of a compare's mask is set when the lane is enabled and the condition holds for each of its elements. -/
theorem getLsbD_condMask (k : Nat) (m : BitVec 64) (f : Nat → Bool) {l : Nat} (hl : l < 64) :
    (condMask k m f).getLsbD l = true ↔ m.getLsbD l = true ∧ ∀ j < k, f (l * k + j) = true := by
  rw [condMask, BitVec.getLsbD_ofNat, (foldl_add_two_pow _ 64).2 l hl, laneOn_eq]
  simp [hl]

/-! ### Mask logic (R215) -/

theorem getLsbD_logicOp (o : BitVec 3) (x y : W64) {l : Nat} (hl : l < 64) :
    (logicOp o.toNat x y).getLsbD l = predicateLogic o (x.getLsbD l) (y.getLsbD l) := by
  obtain rfl | rfl | rfl | rfl | rfl | rfl | rfl | rfl := bitVec_three_cases o
  case inr.inr.inr.inr.inr.inr.inr =>
    show (~~~(x ^^^ y)).getLsbD l = (x.getLsbD l == y.getLsbD l)
    rw [BitVec.getLsbD_not, BitVec.getLsbD_xor, decide_eq_true hl]
    cases x.getLsbD l <;> simp
  all_goals simp [logicOp, predicateLogic, hl]

/-- R215: MFFS gives the first lane that is set, 64 when none is. -/
theorem firstLane_spec {x : W64} {n : Nat} (h : ((List.range 64).find? (fun l => bit x.toNat l)).getD 64 = n) :
    n ≤ 64 ∧ (∀ l < n, x.getLsbD l = false) ∧ (n < 64 → x.getLsbD n = true) := by
  simp only [bit_toNat] at h
  cases hf : (List.range 64).find? (fun l => x.getLsbD l) with
  | none =>
    rw [hf] at h
    subst h
    exact ⟨le_refl 64, by simpa using List.find?_range_eq_none.1 hf, fun h => absurd h (lt_irrefl 64)⟩
  | some k =>
    rw [hf] at h
    subst h
    obtain ⟨hk, hmem, hbefore⟩ := List.find?_range_eq_some.1 hf
    exact ⟨(List.mem_range.1 hmem).le, by simpa using hbefore, fun _ => hk⟩

/-! ### Masks that are refused (R135) -/

theorem slotFault_ne_none_of_specFault {i : Instr} {s : State} {o : Opnd} (ho : o ∈ operands s.core.slot i) (hf : o.specFault = some 0x09) :
    slotFault i s ≠ none := by
  have hspec : firstSpec 9 (operands s.core.slot i) ≠ none := fun h => by simpa [hf] using List.find?_eq_none.1 h o ho
  unfold slotFault
  dsimp only
  split
  · exact Option.some_ne_none _
  split
  · exact Option.some_ne_none _
  · simp [hspec]

/-- R135, R346: an operation whose destination is no own mask 1 to 7 takes a cause. -/
theorem not_clear_of_maskDest {i : Instr} {s : State} {v : Cluster} {d : BitVec 6} (ho : Opnd.kd v d.toNat ∈ operands s.core.slot i)
    (hd : d = 0 ∨ 8 ≤ d.toNat) : ¬Clear i s := by
  have hf : (Opnd.kd v d.toNat).specFault = some 0x09 := by
    obtain rfl | hd := hd
    · rfl
    · exact if_neg (by simp; omega)
  exact fun hc => slotFault_ne_none_of_specFault ho hf hc.1

/-! ### The instructions (R204, R215) -/

variable {s : State} {v : Cluster} {c d m o : BitVec 3} {a b z : BitVec 6}

theorem tagFault_two_eq_none {x y : Nat × Nat} {tags : List Nat} (hx : x.2 ∈ tags) (hxy : x.2 = y.2) (hlt : ∀ t ∈ tags, t < 13) :
    tagFault (some tags) [x, y] = none :=
  tagFault_eq_none (by simp [← hxy, hx, hlt x.2 hx])

/-- R204: an element of `r` as a number of the format of tag `t`. -/
def numAt (t : Nat) (r : VReg) (e : Nat) : Num := (fmtOfTag t).decode (r.el (perLane t) e)

/-- R204: the flags of a VCMP of `x` and `y` in the lanes of `mk`. -/
def compareFlags (c : BitVec 3) (mk : BitVec 64) (x y : VReg) : Nat :=
  flagsOver (enabledElems (perLane x.tag) mk) (fun e => floatConditionFlags c (numAt x.tag x e) (numAt x.tag y e))

section Compares

variable {x y : VReg} {mk : BitVec 64} (hx : readV v a.toNat s = x) (hy : readV v b.toNat s = y) (hm : readMask v m.toNat s = mk)
  (htag : x.tag = y.tag)

include hx hy hm htag

theorem exec_vcmp_eq (hc : Clear (.vcmp v c d a b m) s) (hfp : x.tag ∈ [1, 2, 3]) :
    exec (.vcmp v c d a b m) s = .next (arith (2 + crossing [a, b])
      (elementwise (perLane x.tag) mk (fun e => (0, (fcmp c.toNat (numAt x.tag x e) (numAt x.tag y e)).2))).2 s
      (writeMask v d.toNat (condMask (perLane x.tag) mk (fun e => (fcmp c.toNat (numAt x.tag x e) (numAt x.tag y e)).1))
        (2 + crossing [a, b]))) := by
  subst hx hy hm
  rw [← otherCycle_eq_crossing]
  exact show execVcmp v c d a b m s = _ from checked_orTrap_of_clear hc (tagFault_two_eq_none hfp htag (by decide)) _

/-- R204: VCMP. -/
theorem exec_vcmp_wrote (hc : Clear (.vcmp v c d a b m) s) (hfp : x.tag ∈ [1, 2, 3]) (hq : NoFlagTrap (compareFlags c mk x y) s) :
    ∃ r t, exec (.vcmp v c d a b m) s = .next t ∧
      WroteMask v d.toNat r (2 + crossing [a, b]) (flagged (compareFlags c mk x y) (2 + crossing [a, b]) s) t ∧
      ∀ l < 64, r.getLsbD l = true ↔ mk.getLsbD l = true ∧ ∀ j < perLane x.tag,
        floatCondition c ((numAt x.tag x (l * perLane x.tag + j)).isNan || (numAt x.tag y (l * perLane x.tag + j)).isNan)
          (cmpNum (numAt x.tag x (l * perLane x.tag + j)) (numAt x.tag y (l * perLane x.tag + j))) := by
  have hfl : allFlags (elementwise (perLane x.tag) mk (fun e => (0, (fcmp c.toNat (numAt x.tag x e) (numAt x.tag y e)).2))).2 =
      compareFlags c mk x y := by
    rw [allFlags_elementwise (by have := perLane_cases x.tag; omega)]
    simp only [fcmp_snd, compareFlags]
  have hexec := exec_vcmp_eq hx hy hm htag hc hfp
  rw [arith_of_noFlagTrap (hfl ▸ hq), hfl] at hexec
  refine ⟨_, _, hexec, writeMask_wrote _ _ _ _ _, fun l hl => ?_⟩
  simp only [getLsbD_condMask _ _ _ hl, fcmp_fst_iff]

theorem exec_vicmp_eq (hc : Clear (.vicmp v c d a b m) s) (hint : x.tag ∈ [0, 9, 10, 11]) :
    exec (.vicmp v c d a b m) s = .next (writeMask v d.toNat
      (condMask (perLane x.tag) mk (fun e => intCond c.toNat (32 / perLane x.tag) (x.el (perLane x.tag) e) (y.el (perLane x.tag) e)))
      (2 + crossing [a, b]) s) := by
  subst hx hy hm
  rw [← otherCycle_eq_crossing]
  exact show execVicmp v c d a b m s = _ from checked_orTrap_of_clear hc (tagFault_two_eq_none hint htag (by decide)) _

/-- R204: VICMP. -/
theorem exec_vicmp_wrote (hc : Clear (.vicmp v c d a b m) s) (hint : x.tag ∈ [0, 9, 10, 11]) :
    ∃ r t, exec (.vicmp v c d a b m) s = .next t ∧ WroteMask v d.toNat r (2 + crossing [a, b]) s t ∧
      ∀ l < 64, r.getLsbD l = true ↔ mk.getLsbD l = true ∧ ∀ j < perLane x.tag,
        elementCondition c (32 / perLane x.tag) (x.el (perLane x.tag) (l * perLane x.tag + j)) (y.el (perLane x.tag) (l * perLane x.tag + j)) := by
  refine ⟨_, _, exec_vicmp_eq hx hy hm htag hc hint, writeMask_wrote _ _ _ _ _, fun l hl => ?_⟩
  simp only [getLsbD_condMask _ _ _ hl, intCond_iff_elementCondition c (el_lt _ _ _) (el_lt _ _ _)]

end Compares

/-- R215: MLOG. -/
theorem exec_mlog_wrote (hc : Clear (.mlog v z a b o) s) :
    ∃ r t, exec (.mlog v z a b o) s = .next t ∧ WroteMask v z.toNat r 1 s t ∧
      ∀ l < 64, r.getLsbD l = predicateLogic o ((readMask v a.toNat s).getLsbD l) ((readMask v b.toNat s).getLsbD l) :=
  ⟨_, _, show execMlog v z a b o s = _ from checked_of_clear hc _, writeMask_wrote _ _ _ _ _, fun _ hl => getLsbD_logicOp o _ _ hl⟩

/-- R215: MPOP. -/
theorem exec_mpop_wrote (hc : Clear (.mpop v z a m) s) :
    ∃ t, exec (.mpop v z a m) s = .next t ∧ WroteScalar z.toNat
      (BitVec.ofNat 64 ((List.range 64).filter (fun l => (readMask v a.toNat s &&& readMask v m.toNat s).getLsbD l)).length) 2 s t := by
  rw [← popCount_eq]
  exact ⟨_, show execMpop v z a m s = _ from checked_of_clear hc _, writeS_wrote _ _ _⟩

/-- R215: MFFS. -/
theorem exec_mffs_wrote (hc : Clear (.mffs v z a m) s) :
    ∃ n t, exec (.mffs v z a m) s = .next t ∧ WroteScalar z.toNat (BitVec.ofNat 64 n) 2 s t ∧
      n ≤ 64 ∧ (∀ l < n, (readMask v a.toNat s &&& readMask v m.toNat s).getLsbD l = false) ∧
      (n < 64 → (readMask v a.toNat s &&& readMask v m.toNat s).getLsbD n = true) :=
  ⟨_, _, show execMffs v z a m s = _ from checked_of_clear hc _, writeS_wrote _ _ _, firstLane_spec rfl⟩

/-- R215: MMOVS. -/
theorem exec_mmovs_wrote (hc : Clear (.mmovs v z a) s) :
    ∃ t, exec (.mmovs v z a) s = .next t ∧ WroteScalar z.toNat (readMask v a.toNat s) 2 s t :=
  ⟨_, show execMmovs v z a s = _ from checked_of_clear hc _, writeS_wrote _ _ _⟩

/-- R215: MFROMS. -/
theorem exec_mfroms_wrote (hc : Clear (.mfroms v z a) s) :
    ∃ t, exec (.mfroms v z a) s = .next t ∧ WroteMask v z.toNat (readS a.toNat s) 2 s t :=
  ⟨_, show execMfroms v z a s = _ from checked_of_clear hc _, writeMask_wrote _ _ _ _ _⟩

end Sys2Proof.Machine
end

section
/-! O24: the compares and the mask instructions. -/

open Sys2Proof Sys2Proof.Machine

namespace Sys2Proof.Proofs

/-- Settles O24: each compare and mask instruction writes the lanes or the count of its rule; the words are the encoder's, and a
destination that is no own mask 1 to 7 is a fault of its specifier. -/
theorem masksAreComputed : Obligations.MasksAreComputed := by
  unfold Obligations.MasksAreComputed
  refine ⟨fun v d a b o => encode_eq_word rfl (by simp [sh]), fun v d a m => ⟨?mpop, ?mffs, ?mmovs⟩,
    fun v d a => encode_eq_word rfl (by simp [sh]), ?refused, fun s v c d m o a b => ⟨?vcmp, ?vicmp, ?masks⟩⟩
  case mpop | mffs | mmovs => exact encode_eq_word rfl (by simp [sh])
  case refused =>
    rintro i s v a b o d (rfl | rfl) hd <;> exact not_clear_of_maskDest List.mem_cons_self hd
  case vcmp => exact fun hc htag hfp hq => exec_vcmp_wrote rfl rfl rfl htag hc hfp hq
  case vicmp => exact fun hc htag hint => exec_vicmp_wrote rfl rfl rfl htag hc hint
  case masks =>
    exact ⟨fun _ => exec_mlog_wrote, fun _ => exec_mpop_wrote, fun _ => exec_mffs_wrote, fun _ => exec_mmovs_wrote,
      fun _ => exec_mfroms_wrote⟩

end Sys2Proof.Proofs
end
